-- ==== Sys2Proof/Word.lean ====
section
/-! DEFINITION. The two words of the core: the 8-bit Byte and the 16-bit Address (00_scope.md rule R9). -/

namespace Sys2Proof

/-- An 8-bit unsigned value (u8), 00_scope.md rules R9 and R12. -/
abbrev Byte := BitVec 8

/-- A 16-bit unsigned address (u16), 00_scope.md rules R9 and R12. -/
abbrev Addr := BitVec 16

end Sys2Proof
end

