-- ==== Sys2Proof/Syntax.lean ====
section
/-! DEFINITION. The instruction set as syntax: the 46 mnemonics and nine addressing-mode tags of 30_encoding.md
(rules R68, R71), and `Instr`, one constructor per row of the opcode table, carrying the operand bytes its mode
consumes (rule R67). -/

namespace Sys2Proof

/-- The 46 mnemonics of 30_encoding.md rule R71, in that rule's order. -/
inductive Mnemonic where
  | lda | ldx | ldy | sta | stx | sty | tax | tay
  | txa | tya | tsx | txs | pha | pla | adc | sbc
  | and | ora | eor | cmp | cpx | cpy | bit | inc
  | dec | inx | iny | dex | dey | asl | lsr | rol
  | ror | jmp | jsr | rts | bpl | bmi | bcc | bcs
  | bne | beq | clc | sec | nop | brk
deriving DecidableEq, Repr

/-- The nine addressing-mode tags of 30_encoding.md rule R68. -/
inductive Mode where
  | imp   -- implicit or accumulator (`IMP`)
  | imm   -- immediate (`IMM`)
  | zp    -- zero-page (`ZP`)
  | zpx   -- zero-page,X (`ZPX`)
  | indx  -- (indirect,X) (`INDX`)
  | indy  -- (indirect),Y (`INDY`)
  | abs   -- absolute (`ABS`)
  | absy  -- absolute,Y (`ABSY`)
  | rel   -- relative (`REL`)
deriving DecidableEq, Repr

/-- An instruction: its opcode-table row and its operand bytes. `b` is the one operand byte of a two-byte form,
`lo hi` the two of a three-byte form in the order they are fetched, `o` a branch's offset byte (rule R67). Every
operand byte is legal in every mode (rule R74), so every term is a syntactically well-formed instruction. -/
inductive Instr where
  | ldaImm (b : Byte)  -- LDA #b, R99
  | ldaZp (b : Byte)  -- LDA b, R99
  | ldaZpx (b : Byte)  -- LDA b,X, R99
  | ldaIndx (b : Byte)  -- LDA (b,X), R99
  | ldaIndy (b : Byte)  -- LDA (b),Y, R99
  | ldaAbs (lo hi : Byte)  -- LDA $hilo, R99
  | ldaAbsy (lo hi : Byte)  -- LDA $hilo,Y, R99
  | ldxImm (b : Byte)  -- LDX #b, R100
  | ldxZp (b : Byte)  -- LDX b, R100
  | ldxAbs (lo hi : Byte)  -- LDX $hilo, R100
  | ldxAbsy (lo hi : Byte)  -- LDX $hilo,Y, R100
  | ldyImm (b : Byte)  -- LDY #b, R101
  | ldyZp (b : Byte)  -- LDY b, R101
  | ldyZpx (b : Byte)  -- LDY b,X, R101
  | ldyAbs (lo hi : Byte)  -- LDY $hilo, R101
  | staZp (b : Byte)  -- STA b, R102
  | staZpx (b : Byte)  -- STA b,X, R102
  | staIndx (b : Byte)  -- STA (b,X), R102
  | staIndy (b : Byte)  -- STA (b),Y, R102
  | staAbs (lo hi : Byte)  -- STA $hilo, R102
  | staAbsy (lo hi : Byte)  -- STA $hilo,Y, R102
  | stxZp (b : Byte)  -- STX b, R103
  | stxAbs (lo hi : Byte)  -- STX $hilo, R103
  | styZp (b : Byte)  -- STY b, R104
  | styZpx (b : Byte)  -- STY b,X, R104
  | styAbs (lo hi : Byte)  -- STY $hilo, R104
  | tax  -- TAX, R105
  | tay  -- TAY, R106
  | txa  -- TXA, R107
  | tya  -- TYA, R108
  | tsx  -- TSX, R109
  | txs  -- TXS, R110
  | pha  -- PHA, R111
  | pla  -- PLA, R112
  | adcImm (b : Byte)  -- ADC #b, R115
  | adcZp (b : Byte)  -- ADC b, R115
  | adcZpx (b : Byte)  -- ADC b,X, R115
  | adcIndx (b : Byte)  -- ADC (b,X), R115
  | adcIndy (b : Byte)  -- ADC (b),Y, R115
  | adcAbs (lo hi : Byte)  -- ADC $hilo, R115
  | adcAbsy (lo hi : Byte)  -- ADC $hilo,Y, R115
  | sbcImm (b : Byte)  -- SBC #b, R116
  | sbcZp (b : Byte)  -- SBC b, R116
  | sbcZpx (b : Byte)  -- SBC b,X, R116
  | sbcIndx (b : Byte)  -- SBC (b,X), R116
  | sbcIndy (b : Byte)  -- SBC (b),Y, R116
  | sbcAbs (lo hi : Byte)  -- SBC $hilo, R116
  | sbcAbsy (lo hi : Byte)  -- SBC $hilo,Y, R116
  | andImm (b : Byte)  -- AND #b, R117
  | andZp (b : Byte)  -- AND b, R117
  | andZpx (b : Byte)  -- AND b,X, R117
  | andIndx (b : Byte)  -- AND (b,X), R117
  | andIndy (b : Byte)  -- AND (b),Y, R117
  | andAbs (lo hi : Byte)  -- AND $hilo, R117
  | andAbsy (lo hi : Byte)  -- AND $hilo,Y, R117
  | oraImm (b : Byte)  -- ORA #b, R118
  | oraZp (b : Byte)  -- ORA b, R118
  | oraZpx (b : Byte)  -- ORA b,X, R118
  | oraIndx (b : Byte)  -- ORA (b,X), R118
  | oraIndy (b : Byte)  -- ORA (b),Y, R118
  | oraAbs (lo hi : Byte)  -- ORA $hilo, R118
  | oraAbsy (lo hi : Byte)  -- ORA $hilo,Y, R118
  | eorImm (b : Byte)  -- EOR #b, R119
  | eorZp (b : Byte)  -- EOR b, R119
  | eorZpx (b : Byte)  -- EOR b,X, R119
  | eorIndx (b : Byte)  -- EOR (b,X), R119
  | eorIndy (b : Byte)  -- EOR (b),Y, R119
  | eorAbs (lo hi : Byte)  -- EOR $hilo, R119
  | eorAbsy (lo hi : Byte)  -- EOR $hilo,Y, R119
  | cmpImm (b : Byte)  -- CMP #b, R121
  | cmpZp (b : Byte)  -- CMP b, R121
  | cmpZpx (b : Byte)  -- CMP b,X, R121
  | cmpIndx (b : Byte)  -- CMP (b,X), R121
  | cmpIndy (b : Byte)  -- CMP (b),Y, R121
  | cmpAbs (lo hi : Byte)  -- CMP $hilo, R121
  | cmpAbsy (lo hi : Byte)  -- CMP $hilo,Y, R121
  | cpxImm (b : Byte)  -- CPX #b, R122
  | cpxZp (b : Byte)  -- CPX b, R122
  | cpxAbs (lo hi : Byte)  -- CPX $hilo, R122
  | cpyImm (b : Byte)  -- CPY #b, R123
  | cpyZp (b : Byte)  -- CPY b, R123
  | cpyAbs (lo hi : Byte)  -- CPY $hilo, R123
  | bitZp (b : Byte)  -- BIT b, R124
  | bitAbs (lo hi : Byte)  -- BIT $hilo, R124
  | incZp (b : Byte)  -- INC b, R125
  | incZpx (b : Byte)  -- INC b,X, R125
  | incAbs (lo hi : Byte)  -- INC $hilo, R125
  | decZp (b : Byte)  -- DEC b, R126
  | decZpx (b : Byte)  -- DEC b,X, R126
  | decAbs (lo hi : Byte)  -- DEC $hilo, R126
  | inx  -- INX, R127
  | iny  -- INY, R128
  | dex  -- DEX, R129
  | dey  -- DEY, R130
  | aslAcc  -- ASL A, R132
  | aslZp (b : Byte)  -- ASL b, R132
  | aslZpx (b : Byte)  -- ASL b,X, R132
  | aslAbs (lo hi : Byte)  -- ASL $hilo, R132
  | lsrAcc  -- LSR A, R133
  | lsrZp (b : Byte)  -- LSR b, R133
  | lsrZpx (b : Byte)  -- LSR b,X, R133
  | lsrAbs (lo hi : Byte)  -- LSR $hilo, R133
  | rolAcc  -- ROL A, R134
  | rolZp (b : Byte)  -- ROL b, R134
  | rolZpx (b : Byte)  -- ROL b,X, R134
  | rolAbs (lo hi : Byte)  -- ROL $hilo, R134
  | rorAcc  -- ROR A, R135
  | rorZp (b : Byte)  -- ROR b, R135
  | rorZpx (b : Byte)  -- ROR b,X, R135
  | rorAbs (lo hi : Byte)  -- ROR $hilo, R135
  | jmp (lo hi : Byte)  -- JMP $hilo, R136
  | jsr (lo hi : Byte)  -- JSR $hilo, R137
  | rts  -- RTS, R138
  | bpl (o : Byte)  -- BPL target, R140
  | bmi (o : Byte)  -- BMI target, R141
  | bcc (o : Byte)  -- BCC target, R142
  | bcs (o : Byte)  -- BCS target, R143
  | bne (o : Byte)  -- BNE target, R144
  | beq (o : Byte)  -- BEQ target, R145
  | clc  -- CLC, R146
  | sec  -- SEC, R147
  | nop  -- NOP, R148
  | brk  -- BRK, R149
deriving DecidableEq, Repr

end Sys2Proof
end

