-- ==== Sys2Proof/Config.lean ====
section
/-! DEFINITION. What an implementation fixes (the parameters of 00_scope.md rule R10, among them OPCODE_TABLE of
30_encoding.md rule R70), and the one free value of the machine, the random source of 20_memory.md rule R42. -/

namespace Sys2Proof

/-- An instruction descriptor, "(mnemonic, addressing-mode tag) keyed by opcode byte" (00_scope.md rule R17). -/
structure Descriptor where
  mnemonic : Mnemonic
  mode     : Mode
deriving DecidableEq, Repr

/-- One entry of OPCODE_TABLE: an opcode byte and its descriptor. -/
structure OpcodeRow where
  opcode : Byte
  desc   : Descriptor
deriving DecidableEq, Repr

/-- OPCODE_TABLE, a partial map from u8 to descriptors (30_encoding.md rule R70), as the list of its entries.
DESIGN CHOICE (log entry 11): opcodes strictly rising, so that each partial map is one list. -/
abbrev OpcodeTable := List OpcodeRow

/-- The parameters of 00_scope.md rule R10, named as there. They are configuration, not state (10_state.md
rule R35). OUT_SIZE, OUT_WIDTH and PALETTE_SIZE are integers >= 1, which `Config.wf` checks. -/
structure Config where
  table         : OpcodeTable  -- OPCODE_TABLE
  programOrigin : Addr         -- PROGRAM_ORIGIN
  stackBase     : Addr         -- STACK_BASE
  spReset       : Byte         -- SP_RESET
  aReset        : Byte         -- A_RESET
  xReset        : Byte         -- X_RESET
  yReset        : Byte         -- Y_RESET
  cReset        : Bool         -- C_RESET
  zReset        : Bool         -- Z_RESET
  nReset        : Bool         -- N_RESET
  randomAddr    : Addr         -- RANDOM_ADDR
  inputAddr     : Addr         -- INPUT_ADDR
  inputSentinel : Byte         -- INPUT_SENTINEL
  outBase       : Addr         -- OUT_BASE
  outSize       : Nat          -- OUT_SIZE
  outWidth      : Nat          -- OUT_WIDTH
  paletteSize   : Nat          -- PALETTE_SIZE
  zpPtrWrap     : Bool         -- ZP_PTR_WRAP
deriving DecidableEq, Repr

/-- FREE VALUE (log entry 6): the byte the random source gives at the k-th read of RANDOM_ADDR, "a freshly generated
byte in [0,255] each call" (20_memory.md rule R42, decision D23). It has no body, so nothing can be proved about
which bytes it gives: a claim holds for every draw sequence. -/
opaque Config.randomByte : Nat → Byte

end Sys2Proof
end

