-- ==== Sys2Proof/WellFormed.lean ====
section
/-! DEFINITION. The checks of the spec's configuration: 00_scope.md rules R10 and R11 for the parameters, 30_encoding.md
rule R70 for OPCODE_TABLE; and when an instruction is well-formed under a table. A configuration that fails a
check is refused by `step`. -/

namespace Sys2Proof

/-- The admitted (mnemonic, mode) pairs, the non-blank cells of 30_encoding.md rule R71's table. -/
def admittedModes : Mnemonic → List Mode
  | .lda => [.imm, .zp, .zpx, .indx, .indy, .abs, .absy]
  | .ldx => [.imm, .zp, .abs, .absy]
  | .ldy => [.imm, .zp, .zpx, .abs]
  | .sta => [.zp, .zpx, .indx, .indy, .abs, .absy]
  | .stx => [.zp, .abs]
  | .sty => [.zp, .zpx, .abs]
  | .tax => [.imp]
  | .tay => [.imp]
  | .txa => [.imp]
  | .tya => [.imp]
  | .tsx => [.imp]
  | .txs => [.imp]
  | .pha => [.imp]
  | .pla => [.imp]
  | .adc => [.imm, .zp, .zpx, .indx, .indy, .abs, .absy]
  | .sbc => [.imm, .zp, .zpx, .indx, .indy, .abs, .absy]
  | .and => [.imm, .zp, .zpx, .indx, .indy, .abs, .absy]
  | .ora => [.imm, .zp, .zpx, .indx, .indy, .abs, .absy]
  | .eor => [.imm, .zp, .zpx, .indx, .indy, .abs, .absy]
  | .cmp => [.imm, .zp, .zpx, .indx, .indy, .abs, .absy]
  | .cpx => [.imm, .zp, .abs]
  | .cpy => [.imm, .zp, .abs]
  | .bit => [.zp, .abs]
  | .inc => [.zp, .zpx, .abs]
  | .dec => [.zp, .zpx, .abs]
  | .inx => [.imp]
  | .iny => [.imp]
  | .dex => [.imp]
  | .dey => [.imp]
  | .asl => [.imp, .zp, .zpx, .abs]
  | .lsr => [.imp, .zp, .zpx, .abs]
  | .rol => [.imp, .zp, .zpx, .abs]
  | .ror => [.imp, .zp, .zpx, .abs]
  | .jmp => [.abs]
  | .jsr => [.abs]
  | .rts => [.imp]
  | .bpl => [.rel]
  | .bmi => [.rel]
  | .bcc => [.rel]
  | .bcs => [.rel]
  | .bne => [.rel]
  | .beq => [.rel]
  | .clc => [.imp]
  | .sec => [.imp]
  | .nop => [.imp]
  | .brk => [.imp]

/-- The pair is one of those listed in 30_encoding.md rule R71. -/
def Descriptor.admitted (d : Descriptor) : Bool := (admittedModes d.mnemonic).contains d.mode

/-- The opcodes of a table rise strictly: each opcode has at most one descriptor (30_encoding.md rule R70). -/
def OpcodeTable.rising : OpcodeTable → Bool
  | [] => true
  | [_] => true
  | r :: q :: rest => decide (r.opcode.toNat < q.opcode.toNat) && OpcodeTable.rising (q :: rest)

/-- A table a model may use (30_encoding.md rule R70). -/
def OpcodeTable.wf (t : OpcodeTable) : Bool := OpcodeTable.rising t && t.all (fun r => r.desc.admitted)

/-- An address of the output range `[OUT_BASE, OUT_BASE + OUT_SIZE)` (20_memory.md rule R44). -/
def Config.inOutput (c : Config) (a : Addr) : Bool :=
  decide (c.outBase.toNat ≤ a.toNat) && decide (a.toNat < c.outBase.toNat + c.outSize)

/-- 00_scope.md rule R11, first item: RANDOM_ADDR and INPUT_ADDR differ. -/
def Config.cellsDiffer (c : Config) : Bool := c.randomAddr != c.inputAddr

/-- 00_scope.md rule R11, second item: neither cell lies in the output range. -/
def Config.cellsOutsideOutput (c : Config) : Bool :=
  !c.inOutput c.randomAddr && !c.inOutput c.inputAddr

/-- 00_scope.md rule R11, third item: the output range ends within memory. -/
def Config.outputFits (c : Config) : Bool := decide (c.outBase.toNat + c.outSize ≤ 65536)

/-- 00_scope.md rule R11, fourth item: whole rows. -/
def Config.wholeRows (c : Config) : Bool := c.outSize % c.outWidth == 0

/-- 00_scope.md rule R10: the three counts are integers >= 1. -/
def Config.countsPositive (c : Config) : Bool :=
  decide (1 ≤ c.outSize) && decide (1 ≤ c.outWidth) && decide (1 ≤ c.paletteSize)

/-- The configuration is well-formed: 00_scope.md rules R10 and R11, and 30_encoding.md rule R70. -/
def Config.wf (c : Config) : Bool :=
  c.cellsDiffer && c.cellsOutsideOutput && c.outputFits && c.wholeRows && c.countsPositive && OpcodeTable.wf c.table

end Sys2Proof
end

