-- ==== Sys2Proof/Decode.lean ====
section
/-! DEFINITION. Decoding, total on any bytes, and encoding (30_encoding.md rules R67 to R75): the opcode byte is looked up
as a whole in OPCODE_TABLE, the mode gives the number of operand bytes, and the operand bytes go into the constructor.
Then the encoder, its opcodes written from the encoding line of each instruction's own rule. -/

namespace Sys2Proof

/-! ### Lookup and lengths -/

/-- Operand bytes an addressing mode consumes, 30_encoding.md rule R68. -/
def Mode.operandBytes : Mode → Nat
  | .imp => 0
  | .imm => 1
  | .zp => 1
  | .zpx => 1
  | .indx => 1
  | .indy => 1
  | .abs => 2
  | .absy => 2
  | .rel => 1

/-- Total length of an instruction by its mode, 30_encoding.md rule R68. -/
def Mode.length (m : Mode) : Nat := 1 + m.operandBytes

/-- The entry of OPCODE_TABLE for an opcode byte, if it has one (30_encoding.md rule R69). -/
def lookup (t : OpcodeTable) (op : Byte) : Option Descriptor :=
  (t.find? (fun r => r.opcode == op)).map (fun r => r.desc)

/-! ### From a descriptor and operand bytes to an instruction -/

/-- Why bytes are no instruction. -/
inductive DecodeError where
  | unknownOpcode (op : Byte)        -- no entry in OPCODE_TABLE (60_exceptions.md rule R150)
  | notAdmitted (d : Descriptor)     -- a pair rule R71 does not list: only a table that fails rule R70 gives one
  | truncated (op : Byte)            -- fewer bytes were given than the mode consumes
deriving DecidableEq, Repr

/-- The constructor for an admitted pair (30_encoding.md rule R71), applied to the operand bytes `b0`, `b1` it takes;
`none` for a pair that is not admitted. -/
def Instr.build (m : Mnemonic) (d : Mode) (b0 b1 : Byte) : Option Instr :=
  match m with
  | .lda =>
    match d with
    | .imm => some (.ldaImm b0)
    | .zp => some (.ldaZp b0)
    | .zpx => some (.ldaZpx b0)
    | .indx => some (.ldaIndx b0)
    | .indy => some (.ldaIndy b0)
    | .abs => some (.ldaAbs b0 b1)
    | .absy => some (.ldaAbsy b0 b1)
    | _ => none
  | .ldx =>
    match d with
    | .imm => some (.ldxImm b0)
    | .zp => some (.ldxZp b0)
    | .abs => some (.ldxAbs b0 b1)
    | .absy => some (.ldxAbsy b0 b1)
    | _ => none
  | .ldy =>
    match d with
    | .imm => some (.ldyImm b0)
    | .zp => some (.ldyZp b0)
    | .zpx => some (.ldyZpx b0)
    | .abs => some (.ldyAbs b0 b1)
    | _ => none
  | .sta =>
    match d with
    | .zp => some (.staZp b0)
    | .zpx => some (.staZpx b0)
    | .indx => some (.staIndx b0)
    | .indy => some (.staIndy b0)
    | .abs => some (.staAbs b0 b1)
    | .absy => some (.staAbsy b0 b1)
    | _ => none
  | .stx =>
    match d with
    | .zp => some (.stxZp b0)
    | .abs => some (.stxAbs b0 b1)
    | _ => none
  | .sty =>
    match d with
    | .zp => some (.styZp b0)
    | .zpx => some (.styZpx b0)
    | .abs => some (.styAbs b0 b1)
    | _ => none
  | .tax =>
    match d with
    | .imp => some .tax
    | _ => none
  | .tay =>
    match d with
    | .imp => some .tay
    | _ => none
  | .txa =>
    match d with
    | .imp => some .txa
    | _ => none
  | .tya =>
    match d with
    | .imp => some .tya
    | _ => none
  | .tsx =>
    match d with
    | .imp => some .tsx
    | _ => none
  | .txs =>
    match d with
    | .imp => some .txs
    | _ => none
  | .pha =>
    match d with
    | .imp => some .pha
    | _ => none
  | .pla =>
    match d with
    | .imp => some .pla
    | _ => none
  | .adc =>
    match d with
    | .imm => some (.adcImm b0)
    | .zp => some (.adcZp b0)
    | .zpx => some (.adcZpx b0)
    | .indx => some (.adcIndx b0)
    | .indy => some (.adcIndy b0)
    | .abs => some (.adcAbs b0 b1)
    | .absy => some (.adcAbsy b0 b1)
    | _ => none
  | .sbc =>
    match d with
    | .imm => some (.sbcImm b0)
    | .zp => some (.sbcZp b0)
    | .zpx => some (.sbcZpx b0)
    | .indx => some (.sbcIndx b0)
    | .indy => some (.sbcIndy b0)
    | .abs => some (.sbcAbs b0 b1)
    | .absy => some (.sbcAbsy b0 b1)
    | _ => none
  | .and =>
    match d with
    | .imm => some (.andImm b0)
    | .zp => some (.andZp b0)
    | .zpx => some (.andZpx b0)
    | .indx => some (.andIndx b0)
    | .indy => some (.andIndy b0)
    | .abs => some (.andAbs b0 b1)
    | .absy => some (.andAbsy b0 b1)
    | _ => none
  | .ora =>
    match d with
    | .imm => some (.oraImm b0)
    | .zp => some (.oraZp b0)
    | .zpx => some (.oraZpx b0)
    | .indx => some (.oraIndx b0)
    | .indy => some (.oraIndy b0)
    | .abs => some (.oraAbs b0 b1)
    | .absy => some (.oraAbsy b0 b1)
    | _ => none
  | .eor =>
    match d with
    | .imm => some (.eorImm b0)
    | .zp => some (.eorZp b0)
    | .zpx => some (.eorZpx b0)
    | .indx => some (.eorIndx b0)
    | .indy => some (.eorIndy b0)
    | .abs => some (.eorAbs b0 b1)
    | .absy => some (.eorAbsy b0 b1)
    | _ => none
  | .cmp =>
    match d with
    | .imm => some (.cmpImm b0)
    | .zp => some (.cmpZp b0)
    | .zpx => some (.cmpZpx b0)
    | .indx => some (.cmpIndx b0)
    | .indy => some (.cmpIndy b0)
    | .abs => some (.cmpAbs b0 b1)
    | .absy => some (.cmpAbsy b0 b1)
    | _ => none
  | .cpx =>
    match d with
    | .imm => some (.cpxImm b0)
    | .zp => some (.cpxZp b0)
    | .abs => some (.cpxAbs b0 b1)
    | _ => none
  | .cpy =>
    match d with
    | .imm => some (.cpyImm b0)
    | .zp => some (.cpyZp b0)
    | .abs => some (.cpyAbs b0 b1)
    | _ => none
  | .bit =>
    match d with
    | .zp => some (.bitZp b0)
    | .abs => some (.bitAbs b0 b1)
    | _ => none
  | .inc =>
    match d with
    | .zp => some (.incZp b0)
    | .zpx => some (.incZpx b0)
    | .abs => some (.incAbs b0 b1)
    | _ => none
  | .dec =>
    match d with
    | .zp => some (.decZp b0)
    | .zpx => some (.decZpx b0)
    | .abs => some (.decAbs b0 b1)
    | _ => none
  | .inx =>
    match d with
    | .imp => some .inx
    | _ => none
  | .iny =>
    match d with
    | .imp => some .iny
    | _ => none
  | .dex =>
    match d with
    | .imp => some .dex
    | _ => none
  | .dey =>
    match d with
    | .imp => some .dey
    | _ => none
  | .asl =>
    match d with
    | .imp => some .aslAcc
    | .zp => some (.aslZp b0)
    | .zpx => some (.aslZpx b0)
    | .abs => some (.aslAbs b0 b1)
    | _ => none
  | .lsr =>
    match d with
    | .imp => some .lsrAcc
    | .zp => some (.lsrZp b0)
    | .zpx => some (.lsrZpx b0)
    | .abs => some (.lsrAbs b0 b1)
    | _ => none
  | .rol =>
    match d with
    | .imp => some .rolAcc
    | .zp => some (.rolZp b0)
    | .zpx => some (.rolZpx b0)
    | .abs => some (.rolAbs b0 b1)
    | _ => none
  | .ror =>
    match d with
    | .imp => some .rorAcc
    | .zp => some (.rorZp b0)
    | .zpx => some (.rorZpx b0)
    | .abs => some (.rorAbs b0 b1)
    | _ => none
  | .jmp =>
    match d with
    | .abs => some (.jmp b0 b1)
    | _ => none
  | .jsr =>
    match d with
    | .abs => some (.jsr b0 b1)
    | _ => none
  | .rts =>
    match d with
    | .imp => some .rts
    | _ => none
  | .bpl =>
    match d with
    | .rel => some (.bpl b0)
    | _ => none
  | .bmi =>
    match d with
    | .rel => some (.bmi b0)
    | _ => none
  | .bcc =>
    match d with
    | .rel => some (.bcc b0)
    | _ => none
  | .bcs =>
    match d with
    | .rel => some (.bcs b0)
    | _ => none
  | .bne =>
    match d with
    | .rel => some (.bne b0)
    | _ => none
  | .beq =>
    match d with
    | .rel => some (.beq b0)
    | _ => none
  | .clc =>
    match d with
    | .imp => some .clc
    | _ => none
  | .sec =>
    match d with
    | .imp => some .sec
    | _ => none
  | .nop =>
    match d with
    | .imp => some .nop
    | _ => none
  | .brk =>
    match d with
    | .imp => some .brk
    | _ => none

/-- The operand bytes a mode takes from the front of a byte list, as the pair `Instr.build` reads (an operand the mode
does not have is 0 and not looked at), with the rest of the list. -/
def takeOperands : Nat → List Byte → Option (Byte × Byte × List Byte)
  | 0, bs => some (0, 0, bs)
  | 1, b :: bs => some (b, 0, bs)
  | 2, lo :: hi :: bs => some (lo, hi, bs)
  | _, _ => none

/-- Decode the instruction at the front of a byte list under an opcode table, giving the rest of the list: the opcode
byte decides the descriptor and with it the length (30_encoding.md rules R67, R69, R75). -/
def decode (t : OpcodeTable) : List Byte → Except DecodeError (Instr × List Byte)
  | [] => .error (.truncated 0)
  | op :: bs =>
    match lookup t op with
    | none => .error (.unknownOpcode op)
    | some d =>
      match takeOperands d.mode.operandBytes bs with
      | none => .error (.truncated op)
      | some (b0, b1, rest) =>
        match Instr.build d.mnemonic d.mode b0 b1 with
        | none => .error (.notAdmitted d)
        | some i => .ok (i, rest)

/-! ### The default OPCODE_TABLE -/

/-- A row of the default table. -/
def row (op : Byte) (m : Mnemonic) (d : Mode) : OpcodeRow := ⟨op, ⟨m, d⟩⟩

/-- Opcodes 0x00 to 0x1F of 30_encoding.md rule R72's map (UNVERIFIED values, log entry 2). -/
def defaultRows01 : OpcodeTable := [
  row 0x00 .brk .imp, row 0x01 .ora .indx, row 0x05 .ora .zp,
  row 0x06 .asl .zp, row 0x09 .ora .imm, row 0x0A .asl .imp,
  row 0x0D .ora .abs, row 0x0E .asl .abs, row 0x10 .bpl .rel,
  row 0x11 .ora .indy, row 0x15 .ora .zpx, row 0x16 .asl .zpx,
  row 0x18 .clc .imp, row 0x19 .ora .absy]

/-- Opcodes 0x20 to 0x3F of 30_encoding.md rule R72's map (UNVERIFIED values, log entry 2). -/
def defaultRows23 : OpcodeTable := [
  row 0x20 .jsr .abs, row 0x21 .and .indx, row 0x24 .bit .zp,
  row 0x25 .and .zp, row 0x26 .rol .zp, row 0x29 .and .imm,
  row 0x2A .rol .imp, row 0x2C .bit .abs, row 0x2D .and .abs,
  row 0x2E .rol .abs, row 0x30 .bmi .rel, row 0x31 .and .indy,
  row 0x35 .and .zpx, row 0x36 .rol .zpx, row 0x38 .sec .imp,
  row 0x39 .and .absy]

/-- Opcodes 0x40 to 0x5F of 30_encoding.md rule R72's map (UNVERIFIED values, log entry 2). -/
def defaultRows45 : OpcodeTable := [
  row 0x41 .eor .indx, row 0x45 .eor .zp, row 0x46 .lsr .zp,
  row 0x48 .pha .imp, row 0x49 .eor .imm, row 0x4A .lsr .imp,
  row 0x4C .jmp .abs, row 0x4D .eor .abs, row 0x4E .lsr .abs,
  row 0x51 .eor .indy, row 0x55 .eor .zpx, row 0x56 .lsr .zpx,
  row 0x59 .eor .absy]

/-- Opcodes 0x60 to 0x7F of 30_encoding.md rule R72's map (UNVERIFIED values, log entry 2). -/
def defaultRows67 : OpcodeTable := [
  row 0x60 .rts .imp, row 0x61 .adc .indx, row 0x65 .adc .zp,
  row 0x66 .ror .zp, row 0x68 .pla .imp, row 0x69 .adc .imm,
  row 0x6A .ror .imp, row 0x6D .adc .abs, row 0x6E .ror .abs,
  row 0x71 .adc .indy, row 0x75 .adc .zpx, row 0x76 .ror .zpx,
  row 0x79 .adc .absy]

/-- Opcodes 0x80 to 0x9F of 30_encoding.md rule R72's map (UNVERIFIED values, log entry 2). -/
def defaultRows89 : OpcodeTable := [
  row 0x81 .sta .indx, row 0x84 .sty .zp, row 0x85 .sta .zp,
  row 0x86 .stx .zp, row 0x88 .dey .imp, row 0x8A .txa .imp,
  row 0x8C .sty .abs, row 0x8D .sta .abs, row 0x8E .stx .abs,
  row 0x90 .bcc .rel, row 0x91 .sta .indy, row 0x94 .sty .zpx,
  row 0x95 .sta .zpx, row 0x98 .tya .imp, row 0x99 .sta .absy,
  row 0x9A .txs .imp]

/-- Opcodes 0xA0 to 0xBF of 30_encoding.md rule R72's map (UNVERIFIED values, log entry 2). -/
def defaultRowsAB : OpcodeTable := [
  row 0xA0 .ldy .imm, row 0xA1 .lda .indx, row 0xA2 .ldx .imm,
  row 0xA4 .ldy .zp, row 0xA5 .lda .zp, row 0xA6 .ldx .zp,
  row 0xA8 .tay .imp, row 0xA9 .lda .imm, row 0xAA .tax .imp,
  row 0xAC .ldy .abs, row 0xAD .lda .abs, row 0xAE .ldx .abs,
  row 0xB0 .bcs .rel, row 0xB1 .lda .indy, row 0xB4 .ldy .zpx,
  row 0xB5 .lda .zpx, row 0xB9 .lda .absy, row 0xBA .tsx .imp,
  row 0xBE .ldx .absy]

/-- Opcodes 0xC0 to 0xDF of 30_encoding.md rule R72's map (UNVERIFIED values, log entry 2). -/
def defaultRowsCD : OpcodeTable := [
  row 0xC0 .cpy .imm, row 0xC1 .cmp .indx, row 0xC4 .cpy .zp,
  row 0xC5 .cmp .zp, row 0xC6 .dec .zp, row 0xC8 .iny .imp,
  row 0xC9 .cmp .imm, row 0xCA .dex .imp, row 0xCC .cpy .abs,
  row 0xCD .cmp .abs, row 0xCE .dec .abs, row 0xD0 .bne .rel,
  row 0xD1 .cmp .indy, row 0xD5 .cmp .zpx, row 0xD6 .dec .zpx,
  row 0xD9 .cmp .absy]

/-- Opcodes 0xE0 to 0xFF of 30_encoding.md rule R72's map (UNVERIFIED values, log entry 2). -/
def defaultRowsEF : OpcodeTable := [
  row 0xE0 .cpx .imm, row 0xE1 .sbc .indx, row 0xE4 .cpx .zp,
  row 0xE5 .sbc .zp, row 0xE6 .inc .zp, row 0xE8 .inx .imp,
  row 0xE9 .sbc .imm, row 0xEA .nop .imp, row 0xEC .cpx .abs,
  row 0xED .sbc .abs, row 0xEE .inc .abs, row 0xF0 .beq .rel,
  row 0xF1 .sbc .indy, row 0xF5 .sbc .zpx, row 0xF6 .inc .zpx,
  row 0xF9 .sbc .absy]

/-- The default OPCODE_TABLE: the 123 entries of 30_encoding.md rules R71 and R72. UNVERIFIED (log entry 2): the opcode
values are the NMOS 6502's, which the spec takes from general knowledge (decision D3). -/
def defaultTable : OpcodeTable :=
  defaultRows01 ++ defaultRows23 ++ defaultRows45 ++ defaultRows67 ++ defaultRows89 ++ defaultRowsAB ++ defaultRowsCD ++ defaultRowsEF

/-! ### Encoding -/

/-- The descriptor of an instruction: its mnemonic and mode. -/
def Instr.desc : Instr → Descriptor
  | .ldaImm _ => ⟨.lda, .imm⟩
  | .ldaZp _ => ⟨.lda, .zp⟩
  | .ldaZpx _ => ⟨.lda, .zpx⟩
  | .ldaIndx _ => ⟨.lda, .indx⟩
  | .ldaIndy _ => ⟨.lda, .indy⟩
  | .ldaAbs _ _ => ⟨.lda, .abs⟩
  | .ldaAbsy _ _ => ⟨.lda, .absy⟩
  | .ldxImm _ => ⟨.ldx, .imm⟩
  | .ldxZp _ => ⟨.ldx, .zp⟩
  | .ldxAbs _ _ => ⟨.ldx, .abs⟩
  | .ldxAbsy _ _ => ⟨.ldx, .absy⟩
  | .ldyImm _ => ⟨.ldy, .imm⟩
  | .ldyZp _ => ⟨.ldy, .zp⟩
  | .ldyZpx _ => ⟨.ldy, .zpx⟩
  | .ldyAbs _ _ => ⟨.ldy, .abs⟩
  | .staZp _ => ⟨.sta, .zp⟩
  | .staZpx _ => ⟨.sta, .zpx⟩
  | .staIndx _ => ⟨.sta, .indx⟩
  | .staIndy _ => ⟨.sta, .indy⟩
  | .staAbs _ _ => ⟨.sta, .abs⟩
  | .staAbsy _ _ => ⟨.sta, .absy⟩
  | .stxZp _ => ⟨.stx, .zp⟩
  | .stxAbs _ _ => ⟨.stx, .abs⟩
  | .styZp _ => ⟨.sty, .zp⟩
  | .styZpx _ => ⟨.sty, .zpx⟩
  | .styAbs _ _ => ⟨.sty, .abs⟩
  | .tax => ⟨.tax, .imp⟩
  | .tay => ⟨.tay, .imp⟩
  | .txa => ⟨.txa, .imp⟩
  | .tya => ⟨.tya, .imp⟩
  | .tsx => ⟨.tsx, .imp⟩
  | .txs => ⟨.txs, .imp⟩
  | .pha => ⟨.pha, .imp⟩
  | .pla => ⟨.pla, .imp⟩
  | .adcImm _ => ⟨.adc, .imm⟩
  | .adcZp _ => ⟨.adc, .zp⟩
  | .adcZpx _ => ⟨.adc, .zpx⟩
  | .adcIndx _ => ⟨.adc, .indx⟩
  | .adcIndy _ => ⟨.adc, .indy⟩
  | .adcAbs _ _ => ⟨.adc, .abs⟩
  | .adcAbsy _ _ => ⟨.adc, .absy⟩
  | .sbcImm _ => ⟨.sbc, .imm⟩
  | .sbcZp _ => ⟨.sbc, .zp⟩
  | .sbcZpx _ => ⟨.sbc, .zpx⟩
  | .sbcIndx _ => ⟨.sbc, .indx⟩
  | .sbcIndy _ => ⟨.sbc, .indy⟩
  | .sbcAbs _ _ => ⟨.sbc, .abs⟩
  | .sbcAbsy _ _ => ⟨.sbc, .absy⟩
  | .andImm _ => ⟨.and, .imm⟩
  | .andZp _ => ⟨.and, .zp⟩
  | .andZpx _ => ⟨.and, .zpx⟩
  | .andIndx _ => ⟨.and, .indx⟩
  | .andIndy _ => ⟨.and, .indy⟩
  | .andAbs _ _ => ⟨.and, .abs⟩
  | .andAbsy _ _ => ⟨.and, .absy⟩
  | .oraImm _ => ⟨.ora, .imm⟩
  | .oraZp _ => ⟨.ora, .zp⟩
  | .oraZpx _ => ⟨.ora, .zpx⟩
  | .oraIndx _ => ⟨.ora, .indx⟩
  | .oraIndy _ => ⟨.ora, .indy⟩
  | .oraAbs _ _ => ⟨.ora, .abs⟩
  | .oraAbsy _ _ => ⟨.ora, .absy⟩
  | .eorImm _ => ⟨.eor, .imm⟩
  | .eorZp _ => ⟨.eor, .zp⟩
  | .eorZpx _ => ⟨.eor, .zpx⟩
  | .eorIndx _ => ⟨.eor, .indx⟩
  | .eorIndy _ => ⟨.eor, .indy⟩
  | .eorAbs _ _ => ⟨.eor, .abs⟩
  | .eorAbsy _ _ => ⟨.eor, .absy⟩
  | .cmpImm _ => ⟨.cmp, .imm⟩
  | .cmpZp _ => ⟨.cmp, .zp⟩
  | .cmpZpx _ => ⟨.cmp, .zpx⟩
  | .cmpIndx _ => ⟨.cmp, .indx⟩
  | .cmpIndy _ => ⟨.cmp, .indy⟩
  | .cmpAbs _ _ => ⟨.cmp, .abs⟩
  | .cmpAbsy _ _ => ⟨.cmp, .absy⟩
  | .cpxImm _ => ⟨.cpx, .imm⟩
  | .cpxZp _ => ⟨.cpx, .zp⟩
  | .cpxAbs _ _ => ⟨.cpx, .abs⟩
  | .cpyImm _ => ⟨.cpy, .imm⟩
  | .cpyZp _ => ⟨.cpy, .zp⟩
  | .cpyAbs _ _ => ⟨.cpy, .abs⟩
  | .bitZp _ => ⟨.bit, .zp⟩
  | .bitAbs _ _ => ⟨.bit, .abs⟩
  | .incZp _ => ⟨.inc, .zp⟩
  | .incZpx _ => ⟨.inc, .zpx⟩
  | .incAbs _ _ => ⟨.inc, .abs⟩
  | .decZp _ => ⟨.dec, .zp⟩
  | .decZpx _ => ⟨.dec, .zpx⟩
  | .decAbs _ _ => ⟨.dec, .abs⟩
  | .inx => ⟨.inx, .imp⟩
  | .iny => ⟨.iny, .imp⟩
  | .dex => ⟨.dex, .imp⟩
  | .dey => ⟨.dey, .imp⟩
  | .aslAcc => ⟨.asl, .imp⟩
  | .aslZp _ => ⟨.asl, .zp⟩
  | .aslZpx _ => ⟨.asl, .zpx⟩
  | .aslAbs _ _ => ⟨.asl, .abs⟩
  | .lsrAcc => ⟨.lsr, .imp⟩
  | .lsrZp _ => ⟨.lsr, .zp⟩
  | .lsrZpx _ => ⟨.lsr, .zpx⟩
  | .lsrAbs _ _ => ⟨.lsr, .abs⟩
  | .rolAcc => ⟨.rol, .imp⟩
  | .rolZp _ => ⟨.rol, .zp⟩
  | .rolZpx _ => ⟨.rol, .zpx⟩
  | .rolAbs _ _ => ⟨.rol, .abs⟩
  | .rorAcc => ⟨.ror, .imp⟩
  | .rorZp _ => ⟨.ror, .zp⟩
  | .rorZpx _ => ⟨.ror, .zpx⟩
  | .rorAbs _ _ => ⟨.ror, .abs⟩
  | .jmp _ _ => ⟨.jmp, .abs⟩
  | .jsr _ _ => ⟨.jsr, .abs⟩
  | .rts => ⟨.rts, .imp⟩
  | .bpl _ => ⟨.bpl, .rel⟩
  | .bmi _ => ⟨.bmi, .rel⟩
  | .bcc _ => ⟨.bcc, .rel⟩
  | .bcs _ => ⟨.bcs, .rel⟩
  | .bne _ => ⟨.bne, .rel⟩
  | .beq _ => ⟨.beq, .rel⟩
  | .clc => ⟨.clc, .imp⟩
  | .sec => ⟨.sec, .imp⟩
  | .nop => ⟨.nop, .imp⟩
  | .brk => ⟨.brk, .imp⟩

/-- The opcode byte the encoding line of the instruction's own rule gives it (41, 42 and 43, rules R99 to R149). -/
def Instr.opcode : Instr → Byte
  | .ldaImm _ => 0xA9
  | .ldaZp _ => 0xA5
  | .ldaZpx _ => 0xB5
  | .ldaIndx _ => 0xA1
  | .ldaIndy _ => 0xB1
  | .ldaAbs _ _ => 0xAD
  | .ldaAbsy _ _ => 0xB9
  | .ldxImm _ => 0xA2
  | .ldxZp _ => 0xA6
  | .ldxAbs _ _ => 0xAE
  | .ldxAbsy _ _ => 0xBE
  | .ldyImm _ => 0xA0
  | .ldyZp _ => 0xA4
  | .ldyZpx _ => 0xB4
  | .ldyAbs _ _ => 0xAC
  | .staZp _ => 0x85
  | .staZpx _ => 0x95
  | .staIndx _ => 0x81
  | .staIndy _ => 0x91
  | .staAbs _ _ => 0x8D
  | .staAbsy _ _ => 0x99
  | .stxZp _ => 0x86
  | .stxAbs _ _ => 0x8E
  | .styZp _ => 0x84
  | .styZpx _ => 0x94
  | .styAbs _ _ => 0x8C
  | .tax => 0xAA
  | .tay => 0xA8
  | .txa => 0x8A
  | .tya => 0x98
  | .tsx => 0xBA
  | .txs => 0x9A
  | .pha => 0x48
  | .pla => 0x68
  | .adcImm _ => 0x69
  | .adcZp _ => 0x65
  | .adcZpx _ => 0x75
  | .adcIndx _ => 0x61
  | .adcIndy _ => 0x71
  | .adcAbs _ _ => 0x6D
  | .adcAbsy _ _ => 0x79
  | .sbcImm _ => 0xE9
  | .sbcZp _ => 0xE5
  | .sbcZpx _ => 0xF5
  | .sbcIndx _ => 0xE1
  | .sbcIndy _ => 0xF1
  | .sbcAbs _ _ => 0xED
  | .sbcAbsy _ _ => 0xF9
  | .andImm _ => 0x29
  | .andZp _ => 0x25
  | .andZpx _ => 0x35
  | .andIndx _ => 0x21
  | .andIndy _ => 0x31
  | .andAbs _ _ => 0x2D
  | .andAbsy _ _ => 0x39
  | .oraImm _ => 0x09
  | .oraZp _ => 0x05
  | .oraZpx _ => 0x15
  | .oraIndx _ => 0x01
  | .oraIndy _ => 0x11
  | .oraAbs _ _ => 0x0D
  | .oraAbsy _ _ => 0x19
  | .eorImm _ => 0x49
  | .eorZp _ => 0x45
  | .eorZpx _ => 0x55
  | .eorIndx _ => 0x41
  | .eorIndy _ => 0x51
  | .eorAbs _ _ => 0x4D
  | .eorAbsy _ _ => 0x59
  | .cmpImm _ => 0xC9
  | .cmpZp _ => 0xC5
  | .cmpZpx _ => 0xD5
  | .cmpIndx _ => 0xC1
  | .cmpIndy _ => 0xD1
  | .cmpAbs _ _ => 0xCD
  | .cmpAbsy _ _ => 0xD9
  | .cpxImm _ => 0xE0
  | .cpxZp _ => 0xE4
  | .cpxAbs _ _ => 0xEC
  | .cpyImm _ => 0xC0
  | .cpyZp _ => 0xC4
  | .cpyAbs _ _ => 0xCC
  | .bitZp _ => 0x24
  | .bitAbs _ _ => 0x2C
  | .incZp _ => 0xE6
  | .incZpx _ => 0xF6
  | .incAbs _ _ => 0xEE
  | .decZp _ => 0xC6
  | .decZpx _ => 0xD6
  | .decAbs _ _ => 0xCE
  | .inx => 0xE8
  | .iny => 0xC8
  | .dex => 0xCA
  | .dey => 0x88
  | .aslAcc => 0x0A
  | .aslZp _ => 0x06
  | .aslZpx _ => 0x16
  | .aslAbs _ _ => 0x0E
  | .lsrAcc => 0x4A
  | .lsrZp _ => 0x46
  | .lsrZpx _ => 0x56
  | .lsrAbs _ _ => 0x4E
  | .rolAcc => 0x2A
  | .rolZp _ => 0x26
  | .rolZpx _ => 0x36
  | .rolAbs _ _ => 0x2E
  | .rorAcc => 0x6A
  | .rorZp _ => 0x66
  | .rorZpx _ => 0x76
  | .rorAbs _ _ => 0x6E
  | .jmp _ _ => 0x4C
  | .jsr _ _ => 0x20
  | .rts => 0x60
  | .bpl _ => 0x10
  | .bmi _ => 0x30
  | .bcc _ => 0x90
  | .bcs _ => 0xB0
  | .bne _ => 0xD0
  | .beq _ => 0xF0
  | .clc => 0x18
  | .sec => 0x38
  | .nop => 0xEA
  | .brk => 0x00

/-- The operand bytes of an instruction, in the order they stand after the opcode (30_encoding.md rule R67). -/
def Instr.operands : Instr → List Byte
  | .ldaImm b => [b]
  | .ldaZp b => [b]
  | .ldaZpx b => [b]
  | .ldaIndx b => [b]
  | .ldaIndy b => [b]
  | .ldaAbs lo hi => [lo, hi]
  | .ldaAbsy lo hi => [lo, hi]
  | .ldxImm b => [b]
  | .ldxZp b => [b]
  | .ldxAbs lo hi => [lo, hi]
  | .ldxAbsy lo hi => [lo, hi]
  | .ldyImm b => [b]
  | .ldyZp b => [b]
  | .ldyZpx b => [b]
  | .ldyAbs lo hi => [lo, hi]
  | .staZp b => [b]
  | .staZpx b => [b]
  | .staIndx b => [b]
  | .staIndy b => [b]
  | .staAbs lo hi => [lo, hi]
  | .staAbsy lo hi => [lo, hi]
  | .stxZp b => [b]
  | .stxAbs lo hi => [lo, hi]
  | .styZp b => [b]
  | .styZpx b => [b]
  | .styAbs lo hi => [lo, hi]
  | .tax => []
  | .tay => []
  | .txa => []
  | .tya => []
  | .tsx => []
  | .txs => []
  | .pha => []
  | .pla => []
  | .adcImm b => [b]
  | .adcZp b => [b]
  | .adcZpx b => [b]
  | .adcIndx b => [b]
  | .adcIndy b => [b]
  | .adcAbs lo hi => [lo, hi]
  | .adcAbsy lo hi => [lo, hi]
  | .sbcImm b => [b]
  | .sbcZp b => [b]
  | .sbcZpx b => [b]
  | .sbcIndx b => [b]
  | .sbcIndy b => [b]
  | .sbcAbs lo hi => [lo, hi]
  | .sbcAbsy lo hi => [lo, hi]
  | .andImm b => [b]
  | .andZp b => [b]
  | .andZpx b => [b]
  | .andIndx b => [b]
  | .andIndy b => [b]
  | .andAbs lo hi => [lo, hi]
  | .andAbsy lo hi => [lo, hi]
  | .oraImm b => [b]
  | .oraZp b => [b]
  | .oraZpx b => [b]
  | .oraIndx b => [b]
  | .oraIndy b => [b]
  | .oraAbs lo hi => [lo, hi]
  | .oraAbsy lo hi => [lo, hi]
  | .eorImm b => [b]
  | .eorZp b => [b]
  | .eorZpx b => [b]
  | .eorIndx b => [b]
  | .eorIndy b => [b]
  | .eorAbs lo hi => [lo, hi]
  | .eorAbsy lo hi => [lo, hi]
  | .cmpImm b => [b]
  | .cmpZp b => [b]
  | .cmpZpx b => [b]
  | .cmpIndx b => [b]
  | .cmpIndy b => [b]
  | .cmpAbs lo hi => [lo, hi]
  | .cmpAbsy lo hi => [lo, hi]
  | .cpxImm b => [b]
  | .cpxZp b => [b]
  | .cpxAbs lo hi => [lo, hi]
  | .cpyImm b => [b]
  | .cpyZp b => [b]
  | .cpyAbs lo hi => [lo, hi]
  | .bitZp b => [b]
  | .bitAbs lo hi => [lo, hi]
  | .incZp b => [b]
  | .incZpx b => [b]
  | .incAbs lo hi => [lo, hi]
  | .decZp b => [b]
  | .decZpx b => [b]
  | .decAbs lo hi => [lo, hi]
  | .inx => []
  | .iny => []
  | .dex => []
  | .dey => []
  | .aslAcc => []
  | .aslZp b => [b]
  | .aslZpx b => [b]
  | .aslAbs lo hi => [lo, hi]
  | .lsrAcc => []
  | .lsrZp b => [b]
  | .lsrZpx b => [b]
  | .lsrAbs lo hi => [lo, hi]
  | .rolAcc => []
  | .rolZp b => [b]
  | .rolZpx b => [b]
  | .rolAbs lo hi => [lo, hi]
  | .rorAcc => []
  | .rorZp b => [b]
  | .rorZpx b => [b]
  | .rorAbs lo hi => [lo, hi]
  | .jmp lo hi => [lo, hi]
  | .jsr lo hi => [lo, hi]
  | .rts => []
  | .bpl o => [o]
  | .bmi o => [o]
  | .bcc o => [o]
  | .bcs o => [o]
  | .bne o => [o]
  | .beq o => [o]
  | .clc => []
  | .sec => []
  | .nop => []
  | .brk => []

/-- The length of an instruction in bytes, 30_encoding.md rule R68. -/
def Instr.length (i : Instr) : Nat := i.desc.mode.length

/-- An instruction is well-formed under a table when the table has an entry for its descriptor: its operand bytes may be
anything (30_encoding.md rule R74). Under the default table every instruction is. -/
def Instr.wf (t : OpcodeTable) (i : Instr) : Bool := t.any (fun r => r.desc == i.desc)

/-- The bytes of an instruction with the opcode values of the default table. -/
def encode (i : Instr) : List Byte := i.opcode :: i.operands

/-- The bytes of an instruction under any table: the first opcode with its descriptor (DESIGN CHOICE, log entry 12: a
table may give two opcodes one descriptor), then its operand bytes. -/
def encodeIn (t : OpcodeTable) (i : Instr) : Option (List Byte) :=
  (t.find? (fun r => r.desc == i.desc)).map (fun r => r.opcode :: i.operands)

/-! ### The opcode table's words -/

/-- The bytes of a word whose bits are numbered as spec/opcode_table.json numbers them: the first byte is bits 7..0.
Three bytes, the longest instruction's; every bit from `nbits` on is 0. -/
def tableWordBytes (nbits w : Nat) : List Byte :=
  let v := w % 2 ^ nbits
  [BitVec.ofNat 8 v, BitVec.ofNat 8 (v / 2 ^ 8), BitVec.ofNat 8 (v / 2 ^ 16)]

/-- The instruction the decoder reads from a table word under the default table. -/
def decodeTableWord (nbits w : Nat) : Option Instr :=
  match decode defaultTable (tableWordBytes nbits w) with
  | .ok (i, _) => some i
  | .error _ => none

end Sys2Proof
end

