-- ==== Sys2Proof/Machine/Defaults.lean ====
section
/-! DEFINITION. The default values of the parameters, the "default" column of 00_scope.md rule R10: the configuration of
`State.reset`. -/

namespace Sys2Proof

/-- The defaults of 00_scope.md rule R10. UNVERIFIED (log entry 2): the opcode table, which the spec takes from the NMOS
6502. PRESUMED (log entries 3 and 4): the origin, the stack base, SP and the device addresses are the easy6502
platform's, which the spec takes from general knowledge. DESIGN CHOICE (log entries 4 and 5): the zero resets, the
sentinel and `ZP_PTR_WRAP` are the spec's decisions D12, D16 and D9. -/
def Config.default : Config where
  table := defaultTable
  programOrigin := 0x0600
  stackBase := 0x0100
  spReset := 0xFF
  aReset := 0x00
  xReset := 0x00
  yReset := 0x00
  cReset := false
  zReset := false
  nReset := false
  randomAddr := 0x00FE
  inputAddr := 0x00FF
  inputSentinel := 0x00
  outBase := 0x0200
  outSize := 1024
  outWidth := 32
  paletteSize := 16
  zpPtrWrap := true

end Sys2Proof
end

