-- ==== Sys2Proof/Machine/State.lean ====
section
/-! DEFINITION. The state of the core as plain data: 10_state.md rules R18 to R38. Beside the architectural state of rule
R37 it holds INPUT (rule R33), the parameters the machine was built with (rule R35), and two fields of the model's own:
the count of random draws and the trace of bus accesses and pixel events. -/

namespace Sys2Proof.Machine

/-- The general registers, 10_state.md rule R18. -/
inductive Reg where
  | a
  | x
  | y
deriving DecidableEq, Repr

/-- The run state, 10_state.md rule R31. HALTED is entered by BRK, FAULTED by an unknown opcode. -/
inductive RunState where
  | running
  | halted
  | faulted
deriving DecidableEq, Repr

/-- The fault record, 10_state.md rule R32: FAULT_OPCODE and FAULT_PC. -/
structure FaultRecord where
  opcode : Byte  -- FAULT_OPCODE
  pc     : Addr  -- FAULT_PC: PC after the opcode fetch
deriving DecidableEq, Repr

/-- What the outside or the bus sees, in order (00_scope.md rule R14): a bus read, a bus write, and the host event
`write_pixel(x, y, c)` of 20_memory.md rule R44. -/
inductive Event where
  | read (addr : Addr)
  | write (addr : Addr) (value : Byte)
  | pixel (x y color : Nat)
deriving DecidableEq, Repr

/-- Memory, 10_state.md rule R30, in one canonical form: cells strictly rising by address, none equal to the 0x00 that
an unlisted address reads as. -/
abbrev Memory := List Host.Cell

/-- The state of the machine. -/
structure State where
  cfg      : Config              -- the parameters, rule R35: no step changes them (log entry 1)
  a        : Byte                -- accumulator A, rules R18 and R21
  x        : Byte                -- index register X
  y        : Byte                -- index register Y
  sp       : Byte                -- stack pointer SP, rule R29
  pc       : Addr                -- program counter PC, rule R27
  c        : Bool                -- Carry, rules R22 and R23
  z        : Bool                -- Zero, rules R22 and R24
  n        : Bool                -- Negative, rules R22 and R24
  mem      : Memory              -- Mem, rule R30
  runState : RunState            -- rule R31
  fault    : Option FaultRecord  -- rule R32: unset (none) in RUNNING and HALTED
  input    : Byte                -- INPUT, the host's latch, rule R33
  draws    : Nat                 -- the model's own: reads of RANDOM_ADDR so far (log entry 6)
  trace    : List Event          -- the model's own: bus accesses and pixel events, oldest first (log entry 7)
deriving DecidableEq, Repr

/-- Why the machine would stop with a Host fault: nothing does, so there is no constructor. The one fault of the spec,
UnknownOpcode, is a transition into FAULTED, a next state (10_state.md rule R37; 60_exceptions.md rules R150 and R151;
90_conflicts.md C6; log entry 8). Safe. -/
inductive Fault where
deriving DecidableEq, Repr

/-- Why the machine gives no meaning. -/
inductive Refusal where
  /-- An instruction with no meaning yet: raised by `exec`'s arm of that instruction alone. Safe. No arm raises it. -/
  | notModelled (mnemonic : String)
  /-- The configuration fails 00_scope.md rule R11 or 30_encoding.md rule R70, which a model should refuse: raised by
  `step` in RUNNING (log entry 10). Safe. -/
  | illFormedConfig
deriving DecidableEq, Repr

/-- The machine right after reset under given parameters: the table of 10_state.md rule R38. -/
def State.resetWith (cfg : Config) : State where
  cfg := cfg
  a := cfg.aReset
  x := cfg.xReset
  y := cfg.yReset
  sp := cfg.spReset
  pc := cfg.programOrigin
  c := cfg.cReset
  z := cfg.zReset
  n := cfg.nReset
  mem := []
  runState := .running
  fault := none
  input := cfg.inputSentinel
  draws := 0
  trace := []

/-- The machine right after reset under the default parameters (00_scope.md rule R10; 10_state.md rule R38). -/
def State.reset : State := State.resetWith Config.default

end Sys2Proof.Machine
end

