-- ==== Sys2Proof/Machine/Memory.lean ====
section
/-! DEFINITION. Storage: reading and writing one byte of raw memory in its canonical form (20_memory.md rule R39). These
do not go through the MemoryMap. -/

namespace Sys2Proof.Machine

/-- What an address no cell lists reads as: "defaulting to zero unless loaded" (10_state.md rule R30). -/
def unlistedByte : Byte := 0x00

/-- Read the byte at an address: Storage `get`. -/
def Memory.read : Memory → Nat → Byte
  | [], _ => unlistedByte
  | (b, v) :: m, a => if b = a then v else Memory.read m a

/-- Take every cell at an address out of the list. -/
def Memory.erase (m : Memory) (a : Nat) : Memory := m.filter (fun cell => cell.1 != a)

/-- Put a cell before the first cell at a higher address. -/
def Memory.insert (a : Nat) (v : Byte) : Memory → Memory
  | [] => [(a, v)]
  | cell :: m => if a < cell.1 then (a, v) :: cell :: m else cell :: Memory.insert a v m

/-- Write the byte at an address: Storage `set`. Writing what an unlisted address reads as takes the cell out. -/
def Memory.write (m : Memory) (a : Nat) (v : Byte) : Memory :=
  if v = unlistedByte then Memory.erase m a else Memory.insert a v (Memory.erase m a)

/-- The canonical form holds: addresses strictly rise from `lo` on and lie in the 65536-byte space, and no cell holds
what an unlisted address reads as. -/
def Memory.wfFrom : Nat → Memory → Bool
  | _, [] => true
  | lo, (a, v) :: m => decide (lo ≤ a) && decide (a < 65536) && v != unlistedByte && Memory.wfFrom (a + 1) m

/-- Memory is in canonical form. -/
def Memory.wf (m : Memory) : Bool := Memory.wfFrom 0 m

end Sys2Proof.Machine
end

