-- ==== Sys2Proof/Machine/Ops.lean ====
section
/-! DEFINITION. The named operations over registers, flags, the bus, the stack and the run state: 10_state.md sections 1 to
4, 20_memory.md sections 1 to 5, the halt of 43_control.md rule R149 and the entry of the one exception,
60_exceptions.md rule R150. An operation that gives a value gives it with the state after it. -/

namespace Sys2Proof.Machine

/-! ### Bytes and addresses (00_scope.md rule R13) -/

/-- `cat(hi, lo)`, the little-endian combine: the u16 with high byte `hi` and low byte `lo` (rule R13, 20_memory.md
rule R48). -/
def cat (hi lo : Byte) : Addr := hi ++ lo

/-- `lo8(a)`, the low byte of an address (rule R13). -/
def lo8 (a : Addr) : Byte := a.extractLsb' 0 8

/-- `hi8(a)`, the high byte of an address (rule R13). -/
def hi8 (a : Addr) : Byte := a.extractLsb' 8 8

/-- `zext_16(v)` (rule R13). -/
def zext16 (v : Byte) : Addr := v.setWidth 16

/-- `sext_8(v)` as a 16-bit two's-complement value (rule R13). -/
def sext16 (v : Byte) : Addr := v.signExtend 16

/-! ### Plain updates of one piece of state -/

/-- The raw stored byte `Mem[a]` (00_scope.md rule R14). -/
def State.peek (s : State) (a : Addr) : Byte := Memory.read s.mem a.toNat

/-- `Mem[a] <- v`, raw (20_memory.md rule R39). -/
def State.poke (s : State) (a : Addr) (v : Byte) : State := { s with mem := Memory.write s.mem a.toNat v }

/-- `PC <- target`, no flag effect (00_scope.md rule R14). -/
def State.setPc (s : State) (a : Addr) : State := { s with pc := a }

/-- `SP <- v`, no flag effect (00_scope.md rule R14). -/
def State.setSp (s : State) (v : Byte) : State := { s with sp := v }

/-- `C <- p`: `set_carry`, `clear_carry` and `carry_if`, the only writers of C (10_state.md rule R23). -/
def State.carryIf (s : State) (p : Bool) : State := { s with c := p }

/-- Z and N together, as BIT writes them (42_alu.md rule R124) and `setZN` does. -/
def State.setFlagsZN (s : State) (zero negative : Bool) : State := { s with z := zero, n := negative }

/-- Note an event in the trace. -/
def State.emit (s : State) (e : Event) : State := { s with trace := s.trace ++ [e] }

/-- Count a random draw. -/
def State.countDraw (s : State) : State := { s with draws := s.draws + 1 }

/-- A register without its flag side effect: the store inside `writeReg`. -/
def State.setReg (s : State) (r : Reg) (v : Byte) : State :=
  match r with
  | .a => { s with a := v }
  | .x => { s with x := v }
  | .y => { s with y := v }

/-- `R[r]`: register read, no side effect (10_state.md rule R20). -/
def State.reg (s : State) (r : Reg) : Byte :=
  match r with
  | .a => s.a
  | .x => s.x
  | .y => s.y

/-! ### Flags and the register write -/

/-- `setZN(v)`: Z = (v == 0), N = bit 7 of v, C unchanged (10_state.md rule R24). -/
def setZN (v : Byte) (s : State) : State := s.setFlagsZN (decide (v = 0)) v.msb

/-- `R[r] <- v`: the register write, with its mandatory Z and N side effect (10_state.md rule R19). -/
def writeReg (r : Reg) (v : Byte) (s : State) : State := setZN v (s.setReg r v)

/-! ### The bus (20_memory.md rules R40 to R47) -/

/-- `MemRead(a, 1)`, rule R40: a fresh draw at RANDOM_ADDR (rule R42), the latch at INPUT_ADDR (rule R43), else the
stored byte (rule R45). It changes no memory. -/
def busRead (a : Addr) (s : State) : Byte × State :=
  if a = s.cfg.randomAddr then (Config.randomByte s.draws, (s.emit (.read a)).countDraw)
  else if a = s.cfg.inputAddr then (s.input, s.emit (.read a))
  else (s.peek a, s.emit (.read a))

/-- The event of a write of `v` to an output-range address `a`: row = offset div width, column = offset mod width,
colour = v mod palette size (rule R44). -/
def pixelEvent (cfg : Config) (a : Addr) (v : Byte) : Event :=
  let off := a.toNat - cfg.outBase.toNat
  .pixel (off % cfg.outWidth) (off / cfg.outWidth) (v.toNat % cfg.paletteSize)

/-- `MemWrite(a, 1, v)`, rule R41: the byte is stored at every address (rule R46), and a write into the output range
then emits exactly one pixel event (rule R44). -/
def busWrite (a : Addr) (v : Byte) (s : State) : State :=
  let s1 := (s.poke a v).emit (.write a v)
  if s.cfg.inOutput a then s1.emit (pixelEvent s.cfg a v) else s1

/-- `Fetch()`: the byte at PC through the bus, PC advanced by one modulo 65536 (rule R49, 10_state.md rule R27). -/
def fetch (s : State) : Byte × State :=
  let r := busRead s.pc s
  (r.1, r.2.setPc (s.pc + 1))

/-! ### Jump and branch (20_memory.md rules R50 and R51) -/

/-- `jump(addr)`: PC <- addr, no memory access. -/
def jump (a : Addr) (s : State) : State := s.setPc a

/-- `branch(p, addr)`: jumps only if the predicate holds, otherwise nothing; no memory access. -/
def branch (p : Bool) (a : Addr) (s : State) : State := if p then s.setPc a else s

/-! ### The stack and subroutines (20_memory.md rules R52 to R58) -/

/-- `StackAddr(s) = wrap16(STACK_BASE + s)` (rule R52). -/
def stackAddr (cfg : Config) (sp : Byte) : Addr := cfg.stackBase + zext16 sp

/-- `Push(v)`: SP is decremented modulo 256, then the byte is written at its slot (rules R53 and R55). -/
def push (v : Byte) (s : State) : State :=
  let sp' := s.sp - 1
  busWrite (stackAddr s.cfg sp') v (s.setSp sp')

/-- `Pull()`: the byte at SP's slot is read, then SP is incremented modulo 256 (rules R54 and R55). -/
def pull (s : State) : Byte × State :=
  let r := busRead (stackAddr s.cfg s.sp) s
  (r.1, r.2.setSp (s.sp + 1))

/-- `jsr(addr)`: push the high, then the low byte of the current PC, then jump (rule R57). -/
def callTo (a : Addr) (s : State) : State :=
  let ret := s.pc
  (push (lo8 ret) (push (hi8 ret) s)).setPc a

/-- `rts()`: pull the low, then the high byte and set PC to them, with no adjustment (rule R58). -/
def returnFrom (s : State) : State :=
  let lo := pull s
  let hi := pull lo.2
  hi.2.setPc (cat hi.1 lo.1)

/-! ### Halt and the one exception -/

/-- `halt`: the run state becomes HALTED and nothing else changes (43_control.md rule R149). -/
def halt (s : State) : State := { s with runState := .halted }

/-- Taking the exception `raise UnknownOpcode(op, pc)` (60_exceptions.md rules R150 and R152): the run state becomes
FAULTED and the fault record holds the opcode and PC after the opcode fetch; nothing is pushed, no vector is read, no
register, flag or memory is written. There is no return from it (rule R153): FAULTED is left only by reset. -/
def raiseUnknownOpcode (op : Byte) (s : State) : State :=
  { s with runState := .faulted, fault := some ⟨op, s.pc⟩ }

end Sys2Proof.Machine
end

