-- ==== Sys2Proof/Machine/Flags.lean ====
section
/-! DEFINITION. The ALU's results and carries as pure functions of the operands (42_alu.md), computed exactly on unbounded
integers and masked at the end (rule R113), and the flag settings that write no register (rules R120 and R124). -/

namespace Sys2Proof.Machine

/-- A flag as the integer 0 or 1. -/
def bitNat (c : Bool) : Nat := if c then 1 else 0

/-- ADC's result and carry: t = A + M + C, C = t > 255 (42_alu.md rule R115). Binary only (rule R114). -/
def addCarry (a m : Byte) (c : Bool) : Byte × Bool :=
  let t := a.toNat + m.toNat + bitNat c
  (BitVec.ofNat 8 t, decide (t > 255))

/-- SBC's result and carry: t = A - M - (1 - C), C = t >= 0, so C = 1 means no borrow (42_alu.md rule R116). -/
def subBorrow (a m : Byte) (c : Bool) : Byte × Bool :=
  let t : Int := (a.toNat : Int) - m.toNat - (1 - bitNat c)
  (BitVec.ofInt 8 t, decide (0 ≤ t))

/-- `Compare(r, m)`: C = r >= m unsigned, Z and N from wrap8(r - m); no register is written (42_alu.md rule R120). -/
def compareFlags (r m : Byte) (s : State) : State := setZN (r - m) (s.carryIf (decide (m.toNat ≤ r.toNat)))

/-- BIT: Z from A AND M, N from bit 7 of M, C unchanged (42_alu.md rule R124). -/
def bitFlags (a m : Byte) (s : State) : State := s.setFlagsZN (decide (a &&& m = 0)) m.msb

/-- ASL: (wrap8(o << 1), o[7]) (42_alu.md rule R132). -/
def aslBits (o : Byte) (_ : Bool) : Byte × Bool := (o <<< 1, o.msb)

/-- LSR: (o >> 1, o[0]) (42_alu.md rule R133). -/
def lsrBits (o : Byte) (_ : Bool) : Byte × Bool := (o >>> 1, o.getLsbD 0)

/-- ROL: (wrap8((o << 1) | c), o[7]) with the old carry (42_alu.md rule R134). -/
def rolBits (o : Byte) (c : Bool) : Byte × Bool := (o <<< 1 ||| BitVec.ofNat 8 (bitNat c), o.msb)

/-- ROR: ((o >> 1) | (c << 7), o[0]) with the old carry (42_alu.md rule R135). -/
def rorBits (o : Byte) (c : Bool) : Byte × Bool := (o >>> 1 ||| BitVec.ofNat 8 (bitNat c) <<< 7, o.getLsbD 0)

end Sys2Proof.Machine
end

