-- ==== Sys2Proof/Machine/Operands.lean ====
section
/-! DEFINITION. The addressing-mode microengine, 40_step_and_addressing.md rules R83 to R98, after the operand bytes have
been consumed by the fetch. The Reference of rule R83 appears by its kinds: `None` is an instruction with no operand
argument; `Imm(b)` is `Source.imm b`; `Addr(a)` is the address `effAddr` or `branchTarget` forms. A form whose
reference has no value therefore cannot be asked for one (rule R84; log entry 15). -/

namespace Sys2Proof.Machine

/-- The addressing modes that give a concrete address, with the operand bytes they consumed. -/
inductive AddrForm where
  | zp (b : Byte)
  | zpx (b : Byte)
  | indx (b : Byte)
  | indy (b : Byte)
  | abs (lo hi : Byte)
  | absy (lo hi : Byte)
deriving DecidableEq, Repr

/-- Where an operand value comes from: `Imm(b)` or `Addr(a)` (rule R83). -/
inductive Source where
  | imm (b : Byte)
  | mem (f : AddrForm)
deriving DecidableEq, Repr

/-- `ptrhi(p)`, the address of a zero-page pointer's high byte: within page zero with ZP_PTR_WRAP, else the next
16-bit address (rule R91). -/
def ptrHi (cfg : Config) (p : Byte) : Addr := if cfg.zpPtrWrap then zext16 (p + 1) else zext16 p + 1

/-- The 16-bit pointer at a zero-page address: low byte, then high byte, two bus reads (rules R92 and R93). -/
def readPointer (p : Byte) (s : State) : Addr × State :=
  let lo := busRead (zext16 p) s
  let hi := busRead (ptrHi s.cfg p) lo.2
  (cat hi.1 lo.1, hi.2)

/-- The effective address `ea` of rule R85, formed by the mode's rule, with the state after the pointer reads of the
indirect modes: ZP rule R89, ZPX R90, INDX R92, INDY R93, ABS R94, ABSY R95. -/
def effAddr (f : AddrForm) (s : State) : Addr × State :=
  match f with
  | .zp b => (zext16 b, s)
  | .zpx b => (zext16 (b + s.x), s)
  | .indx b => readPointer (b + s.x) s
  | .indy b =>
    let p := readPointer b s
    (p.1 + zext16 s.y, p.2)
  | .abs lo hi => (cat hi lo, s)
  | .absy lo hi => (cat hi lo + zext16 s.y, s)

/-- `opnd()`, the operand value, with at most one data read (rules R84 and R88). -/
def opnd (src : Source) (s : State) : Byte × State :=
  match src with
  | .imm b => (b, s)
  | .mem f =>
    let e := effAddr f s
    busRead e.1 e.2

/-- The relative mode's target, wrap16(PC + sext_8(o)), PC being the address of the next instruction (rule R96). -/
def branchTarget (o : Byte) (s : State) : Addr := s.pc + sext16 o

/-! ### Shared actions over operands -/

/-- `R[r] <- opnd()`: LDA, LDX, LDY (41_load_store_transfer.md rules R99 to R101). -/
def loadReg (r : Reg) (src : Source) (s : State) : State :=
  let o := opnd src s
  writeReg r o.1 o.2

/-- `MemWrite(ea, 1, R[r])`: STA, STX, STY (41_load_store_transfer.md rules R102 to R104). -/
def storeReg (r : Reg) (f : AddrForm) (s : State) : State :=
  let e := effAddr f s
  busWrite e.1 (e.2.reg r) e.2

/-- ADC and SBC: result into A, carry into C (42_alu.md rules R115 and R116). -/
def aluCarry (op : Byte → Byte → Bool → Byte × Bool) (src : Source) (s : State) : State :=
  let o := opnd src s
  let r := op o.2.a o.1 o.2.c
  writeReg .a r.1 (o.2.carryIf r.2)

/-- AND, ORA, EOR: result into A, C unchanged (42_alu.md rules R117 to R119). -/
def aluLogic (op : Byte → Byte → Byte) (src : Source) (s : State) : State :=
  let o := opnd src s
  writeReg .a (op o.2.a o.1) o.2

/-- CMP, CPX, CPY: `Compare(R[r], opnd())` (42_alu.md rules R121 to R123). -/
def compareReg (r : Reg) (src : Source) (s : State) : State :=
  let o := opnd src s
  compareFlags (o.2.reg r) o.1 o.2

/-- BIT on a memory operand (42_alu.md rule R124). -/
def bitTest (f : AddrForm) (s : State) : State :=
  let o := opnd (.mem f) s
  bitFlags o.2.a o.1 o.2

/-- INC and DEC: one read, one write, then Z and N (42_alu.md rules R125 and R126). -/
def stepMem (op : Byte → Byte) (f : AddrForm) (s : State) : State :=
  let e := effAddr f s
  let m := busRead e.1 e.2
  let r := op m.1
  setZN r (busWrite e.1 r m.2)

/-- The accumulator form of a shift (42_alu.md rule R131). -/
def shiftAcc (op : Byte → Bool → Byte × Bool) (s : State) : State :=
  let r := op s.a s.c
  writeReg .a r.1 (s.carryIf r.2)

/-- The memory form of a shift: one read, one write, then Z and N (42_alu.md rule R131). -/
def shiftMem (op : Byte → Bool → Byte × Bool) (f : AddrForm) (s : State) : State :=
  let e := effAddr f s
  let m := busRead e.1 e.2
  let r := op m.1 m.2.c
  setZN r.1 (busWrite e.1 r.1 (m.2.carryIf r.2))

/-- A conditional branch (43_control.md rule R139). -/
def branchIf (p : Bool) (o : Byte) (s : State) : State := branch p (branchTarget o s) s

end Sys2Proof.Machine
end

