-- ==== Sys2Proof/Machine/Alu.lean ====
section
/-! DEFINITION. The meanings of the arithmetic, logic, compares and the bit test, 42_alu.md sections 1 to 4. A meaning starts after the fetch: PC is
already the address of the next instruction (10_state.md rule R28). -/

namespace Sys2Proof.Machine

/-- ADC (IMM): add with carry (42_alu.md rule R115). -/
def execAdcImm (b : Byte) (s : State) : Host.Outcome State Fault Refusal :=
  .next (aluCarry addCarry (.imm b) s)

/-- ADC (ZP): add with carry (42_alu.md rule R115). -/
def execAdcZp (b : Byte) (s : State) : Host.Outcome State Fault Refusal :=
  .next (aluCarry addCarry (.mem (.zp b)) s)

/-- ADC (ZPX): add with carry (42_alu.md rule R115). -/
def execAdcZpx (b : Byte) (s : State) : Host.Outcome State Fault Refusal :=
  .next (aluCarry addCarry (.mem (.zpx b)) s)

/-- ADC (INDX): add with carry (42_alu.md rule R115). -/
def execAdcIndx (b : Byte) (s : State) : Host.Outcome State Fault Refusal :=
  .next (aluCarry addCarry (.mem (.indx b)) s)

/-- ADC (INDY): add with carry (42_alu.md rule R115). -/
def execAdcIndy (b : Byte) (s : State) : Host.Outcome State Fault Refusal :=
  .next (aluCarry addCarry (.mem (.indy b)) s)

/-- ADC (ABS): add with carry (42_alu.md rule R115). -/
def execAdcAbs (lo hi : Byte) (s : State) : Host.Outcome State Fault Refusal :=
  .next (aluCarry addCarry (.mem (.abs lo hi)) s)

/-- ADC (ABSY): add with carry (42_alu.md rule R115). -/
def execAdcAbsy (lo hi : Byte) (s : State) : Host.Outcome State Fault Refusal :=
  .next (aluCarry addCarry (.mem (.absy lo hi)) s)

/-- SBC (IMM): subtract with borrow (42_alu.md rule R116). -/
def execSbcImm (b : Byte) (s : State) : Host.Outcome State Fault Refusal :=
  .next (aluCarry subBorrow (.imm b) s)

/-- SBC (ZP): subtract with borrow (42_alu.md rule R116). -/
def execSbcZp (b : Byte) (s : State) : Host.Outcome State Fault Refusal :=
  .next (aluCarry subBorrow (.mem (.zp b)) s)

/-- SBC (ZPX): subtract with borrow (42_alu.md rule R116). -/
def execSbcZpx (b : Byte) (s : State) : Host.Outcome State Fault Refusal :=
  .next (aluCarry subBorrow (.mem (.zpx b)) s)

/-- SBC (INDX): subtract with borrow (42_alu.md rule R116). -/
def execSbcIndx (b : Byte) (s : State) : Host.Outcome State Fault Refusal :=
  .next (aluCarry subBorrow (.mem (.indx b)) s)

/-- SBC (INDY): subtract with borrow (42_alu.md rule R116). -/
def execSbcIndy (b : Byte) (s : State) : Host.Outcome State Fault Refusal :=
  .next (aluCarry subBorrow (.mem (.indy b)) s)

/-- SBC (ABS): subtract with borrow (42_alu.md rule R116). -/
def execSbcAbs (lo hi : Byte) (s : State) : Host.Outcome State Fault Refusal :=
  .next (aluCarry subBorrow (.mem (.abs lo hi)) s)

/-- SBC (ABSY): subtract with borrow (42_alu.md rule R116). -/
def execSbcAbsy (lo hi : Byte) (s : State) : Host.Outcome State Fault Refusal :=
  .next (aluCarry subBorrow (.mem (.absy lo hi)) s)

/-- AND (IMM): AND into A (42_alu.md rule R117). -/
def execAndImm (b : Byte) (s : State) : Host.Outcome State Fault Refusal :=
  .next (aluLogic (· &&& ·) (.imm b) s)

/-- AND (ZP): AND into A (42_alu.md rule R117). -/
def execAndZp (b : Byte) (s : State) : Host.Outcome State Fault Refusal :=
  .next (aluLogic (· &&& ·) (.mem (.zp b)) s)

/-- AND (ZPX): AND into A (42_alu.md rule R117). -/
def execAndZpx (b : Byte) (s : State) : Host.Outcome State Fault Refusal :=
  .next (aluLogic (· &&& ·) (.mem (.zpx b)) s)

/-- AND (INDX): AND into A (42_alu.md rule R117). -/
def execAndIndx (b : Byte) (s : State) : Host.Outcome State Fault Refusal :=
  .next (aluLogic (· &&& ·) (.mem (.indx b)) s)

/-- AND (INDY): AND into A (42_alu.md rule R117). -/
def execAndIndy (b : Byte) (s : State) : Host.Outcome State Fault Refusal :=
  .next (aluLogic (· &&& ·) (.mem (.indy b)) s)

/-- AND (ABS): AND into A (42_alu.md rule R117). -/
def execAndAbs (lo hi : Byte) (s : State) : Host.Outcome State Fault Refusal :=
  .next (aluLogic (· &&& ·) (.mem (.abs lo hi)) s)

/-- AND (ABSY): AND into A (42_alu.md rule R117). -/
def execAndAbsy (lo hi : Byte) (s : State) : Host.Outcome State Fault Refusal :=
  .next (aluLogic (· &&& ·) (.mem (.absy lo hi)) s)

/-- ORA (IMM): OR into A (42_alu.md rule R118). -/
def execOraImm (b : Byte) (s : State) : Host.Outcome State Fault Refusal :=
  .next (aluLogic (· ||| ·) (.imm b) s)

/-- ORA (ZP): OR into A (42_alu.md rule R118). -/
def execOraZp (b : Byte) (s : State) : Host.Outcome State Fault Refusal :=
  .next (aluLogic (· ||| ·) (.mem (.zp b)) s)

/-- ORA (ZPX): OR into A (42_alu.md rule R118). -/
def execOraZpx (b : Byte) (s : State) : Host.Outcome State Fault Refusal :=
  .next (aluLogic (· ||| ·) (.mem (.zpx b)) s)

/-- ORA (INDX): OR into A (42_alu.md rule R118). -/
def execOraIndx (b : Byte) (s : State) : Host.Outcome State Fault Refusal :=
  .next (aluLogic (· ||| ·) (.mem (.indx b)) s)

/-- ORA (INDY): OR into A (42_alu.md rule R118). -/
def execOraIndy (b : Byte) (s : State) : Host.Outcome State Fault Refusal :=
  .next (aluLogic (· ||| ·) (.mem (.indy b)) s)

/-- ORA (ABS): OR into A (42_alu.md rule R118). -/
def execOraAbs (lo hi : Byte) (s : State) : Host.Outcome State Fault Refusal :=
  .next (aluLogic (· ||| ·) (.mem (.abs lo hi)) s)

/-- ORA (ABSY): OR into A (42_alu.md rule R118). -/
def execOraAbsy (lo hi : Byte) (s : State) : Host.Outcome State Fault Refusal :=
  .next (aluLogic (· ||| ·) (.mem (.absy lo hi)) s)

/-- EOR (IMM): exclusive OR into A (42_alu.md rule R119). -/
def execEorImm (b : Byte) (s : State) : Host.Outcome State Fault Refusal :=
  .next (aluLogic (· ^^^ ·) (.imm b) s)

/-- EOR (ZP): exclusive OR into A (42_alu.md rule R119). -/
def execEorZp (b : Byte) (s : State) : Host.Outcome State Fault Refusal :=
  .next (aluLogic (· ^^^ ·) (.mem (.zp b)) s)

/-- EOR (ZPX): exclusive OR into A (42_alu.md rule R119). -/
def execEorZpx (b : Byte) (s : State) : Host.Outcome State Fault Refusal :=
  .next (aluLogic (· ^^^ ·) (.mem (.zpx b)) s)

/-- EOR (INDX): exclusive OR into A (42_alu.md rule R119). -/
def execEorIndx (b : Byte) (s : State) : Host.Outcome State Fault Refusal :=
  .next (aluLogic (· ^^^ ·) (.mem (.indx b)) s)

/-- EOR (INDY): exclusive OR into A (42_alu.md rule R119). -/
def execEorIndy (b : Byte) (s : State) : Host.Outcome State Fault Refusal :=
  .next (aluLogic (· ^^^ ·) (.mem (.indy b)) s)

/-- EOR (ABS): exclusive OR into A (42_alu.md rule R119). -/
def execEorAbs (lo hi : Byte) (s : State) : Host.Outcome State Fault Refusal :=
  .next (aluLogic (· ^^^ ·) (.mem (.abs lo hi)) s)

/-- EOR (ABSY): exclusive OR into A (42_alu.md rule R119). -/
def execEorAbsy (lo hi : Byte) (s : State) : Host.Outcome State Fault Refusal :=
  .next (aluLogic (· ^^^ ·) (.mem (.absy lo hi)) s)

/-- CMP (IMM): compare A (42_alu.md rule R121). -/
def execCmpImm (b : Byte) (s : State) : Host.Outcome State Fault Refusal :=
  .next (compareReg .a (.imm b) s)

/-- CMP (ZP): compare A (42_alu.md rule R121). -/
def execCmpZp (b : Byte) (s : State) : Host.Outcome State Fault Refusal :=
  .next (compareReg .a (.mem (.zp b)) s)

/-- CMP (ZPX): compare A (42_alu.md rule R121). -/
def execCmpZpx (b : Byte) (s : State) : Host.Outcome State Fault Refusal :=
  .next (compareReg .a (.mem (.zpx b)) s)

/-- CMP (INDX): compare A (42_alu.md rule R121). -/
def execCmpIndx (b : Byte) (s : State) : Host.Outcome State Fault Refusal :=
  .next (compareReg .a (.mem (.indx b)) s)

/-- CMP (INDY): compare A (42_alu.md rule R121). -/
def execCmpIndy (b : Byte) (s : State) : Host.Outcome State Fault Refusal :=
  .next (compareReg .a (.mem (.indy b)) s)

/-- CMP (ABS): compare A (42_alu.md rule R121). -/
def execCmpAbs (lo hi : Byte) (s : State) : Host.Outcome State Fault Refusal :=
  .next (compareReg .a (.mem (.abs lo hi)) s)

/-- CMP (ABSY): compare A (42_alu.md rule R121). -/
def execCmpAbsy (lo hi : Byte) (s : State) : Host.Outcome State Fault Refusal :=
  .next (compareReg .a (.mem (.absy lo hi)) s)

/-- CPX (IMM): compare X (42_alu.md rule R122). -/
def execCpxImm (b : Byte) (s : State) : Host.Outcome State Fault Refusal :=
  .next (compareReg .x (.imm b) s)

/-- CPX (ZP): compare X (42_alu.md rule R122). -/
def execCpxZp (b : Byte) (s : State) : Host.Outcome State Fault Refusal :=
  .next (compareReg .x (.mem (.zp b)) s)

/-- CPX (ABS): compare X (42_alu.md rule R122). -/
def execCpxAbs (lo hi : Byte) (s : State) : Host.Outcome State Fault Refusal :=
  .next (compareReg .x (.mem (.abs lo hi)) s)

/-- CPY (IMM): compare Y (42_alu.md rule R123). -/
def execCpyImm (b : Byte) (s : State) : Host.Outcome State Fault Refusal :=
  .next (compareReg .y (.imm b) s)

/-- CPY (ZP): compare Y (42_alu.md rule R123). -/
def execCpyZp (b : Byte) (s : State) : Host.Outcome State Fault Refusal :=
  .next (compareReg .y (.mem (.zp b)) s)

/-- CPY (ABS): compare Y (42_alu.md rule R123). -/
def execCpyAbs (lo hi : Byte) (s : State) : Host.Outcome State Fault Refusal :=
  .next (compareReg .y (.mem (.abs lo hi)) s)

/-- BIT (ZP): bit test (42_alu.md rule R124). -/
def execBitZp (b : Byte) (s : State) : Host.Outcome State Fault Refusal :=
  .next (bitTest (.zp b) s)

/-- BIT (ABS): bit test (42_alu.md rule R124). -/
def execBitAbs (lo hi : Byte) (s : State) : Host.Outcome State Fault Refusal :=
  .next (bitTest (.abs lo hi) s)

end Sys2Proof.Machine
end

