-- ==== Sys2Proof/Machine/Control.lean ====
section
/-! DEFINITION. The meanings of the jumps, subroutines, branches, carry flag, NOP and halt, 43_control.md. A meaning starts after the fetch: PC is
already the address of the next instruction (10_state.md rule R28). -/

namespace Sys2Proof.Machine

/-- JMP (ABS): jump (43_control.md rule R136). -/
def execJmp (lo hi : Byte) (s : State) : Host.Outcome State Fault Refusal :=
  .next (jump (cat hi lo) s)

/-- JSR (ABS): jump to subroutine, pushing the address of the next instruction (43_control.md rule R137). -/
def execJsr (lo hi : Byte) (s : State) : Host.Outcome State Fault Refusal :=
  .next (callTo (cat hi lo) s)

/-- RTS (IMP): return to exactly the pulled address (43_control.md rule R138). -/
def execRts (s : State) : Host.Outcome State Fault Refusal :=
  .next (returnFrom s)

/-- BPL (REL): branch if N = 0 (43_control.md rule R140). -/
def execBpl (o : Byte) (s : State) : Host.Outcome State Fault Refusal :=
  .next (branchIf (!s.n) o s)

/-- BMI (REL): branch if N = 1 (43_control.md rule R141). -/
def execBmi (o : Byte) (s : State) : Host.Outcome State Fault Refusal :=
  .next (branchIf s.n o s)

/-- BCC (REL): branch if C = 0 (43_control.md rule R142). -/
def execBcc (o : Byte) (s : State) : Host.Outcome State Fault Refusal :=
  .next (branchIf (!s.c) o s)

/-- BCS (REL): branch if C = 1 (43_control.md rule R143). -/
def execBcs (o : Byte) (s : State) : Host.Outcome State Fault Refusal :=
  .next (branchIf s.c o s)

/-- BNE (REL): branch if Z = 0 (43_control.md rule R144). -/
def execBne (o : Byte) (s : State) : Host.Outcome State Fault Refusal :=
  .next (branchIf (!s.z) o s)

/-- BEQ (REL): branch if Z = 1 (43_control.md rule R145). -/
def execBeq (o : Byte) (s : State) : Host.Outcome State Fault Refusal :=
  .next (branchIf s.z o s)

/-- CLC (IMP): clear carry (43_control.md rule R146). -/
def execClc (s : State) : Host.Outcome State Fault Refusal :=
  .next (s.carryIf false)

/-- SEC (IMP): set carry (43_control.md rule R147). -/
def execSec (s : State) : Host.Outcome State Fault Refusal :=
  .next (s.carryIf true)

/-- NOP (IMP): no operation (43_control.md rule R148). -/
def execNop (s : State) : Host.Outcome State Fault Refusal :=
  .next s

/-- BRK (IMP): halt; PC stays at ia + 1, nothing is pushed, no vector is read (43_control.md rule R149). -/
def execBrk (s : State) : Host.Outcome State Fault Refusal :=
  .next (halt s)

end Sys2Proof.Machine
end

