-- ==== Sys2Proof/Machine/IncDec.lean ====
section
/-! DEFINITION. The meanings of the increments and decrements, 42_alu.md section 5. A meaning starts after the fetch: PC is
already the address of the next instruction (10_state.md rule R28). -/

namespace Sys2Proof.Machine

/-- INC (ZP): increment memory (42_alu.md rule R125). -/
def execIncZp (b : Byte) (s : State) : Host.Outcome State Fault Refusal :=
  .next (stepMem (· + 1) (.zp b) s)

/-- INC (ZPX): increment memory (42_alu.md rule R125). -/
def execIncZpx (b : Byte) (s : State) : Host.Outcome State Fault Refusal :=
  .next (stepMem (· + 1) (.zpx b) s)

/-- INC (ABS): increment memory (42_alu.md rule R125). -/
def execIncAbs (lo hi : Byte) (s : State) : Host.Outcome State Fault Refusal :=
  .next (stepMem (· + 1) (.abs lo hi) s)

/-- DEC (ZP): decrement memory (42_alu.md rule R126). -/
def execDecZp (b : Byte) (s : State) : Host.Outcome State Fault Refusal :=
  .next (stepMem (· - 1) (.zp b) s)

/-- DEC (ZPX): decrement memory (42_alu.md rule R126). -/
def execDecZpx (b : Byte) (s : State) : Host.Outcome State Fault Refusal :=
  .next (stepMem (· - 1) (.zpx b) s)

/-- DEC (ABS): decrement memory (42_alu.md rule R126). -/
def execDecAbs (lo hi : Byte) (s : State) : Host.Outcome State Fault Refusal :=
  .next (stepMem (· - 1) (.abs lo hi) s)

/-- INX (IMP): increment X (42_alu.md rule R127). -/
def execInx (s : State) : Host.Outcome State Fault Refusal :=
  .next (writeReg .x (s.reg .x + 1) s)

/-- INY (IMP): increment Y (42_alu.md rule R128). -/
def execIny (s : State) : Host.Outcome State Fault Refusal :=
  .next (writeReg .y (s.reg .y + 1) s)

/-- DEX (IMP): decrement X (42_alu.md rule R129). -/
def execDex (s : State) : Host.Outcome State Fault Refusal :=
  .next (writeReg .x (s.reg .x - 1) s)

/-- DEY (IMP): decrement Y (42_alu.md rule R130). -/
def execDey (s : State) : Host.Outcome State Fault Refusal :=
  .next (writeReg .y (s.reg .y - 1) s)

end Sys2Proof.Machine
end

