-- ==== Sys2Proof/Machine/LoadStore.lean ====
section
/-! DEFINITION. The meanings of the loads and stores, 41_load_store_transfer.md sections 1 and 2. A meaning starts after the fetch: PC is
already the address of the next instruction (10_state.md rule R28). -/

namespace Sys2Proof.Machine

/-- LDA (IMM): load A (41_load_store_transfer.md rule R99). -/
def execLdaImm (b : Byte) (s : State) : Host.Outcome State Fault Refusal :=
  .next (loadReg .a (.imm b) s)

/-- LDA (ZP): load A (41_load_store_transfer.md rule R99). -/
def execLdaZp (b : Byte) (s : State) : Host.Outcome State Fault Refusal :=
  .next (loadReg .a (.mem (.zp b)) s)

/-- LDA (ZPX): load A (41_load_store_transfer.md rule R99). -/
def execLdaZpx (b : Byte) (s : State) : Host.Outcome State Fault Refusal :=
  .next (loadReg .a (.mem (.zpx b)) s)

/-- LDA (INDX): load A (41_load_store_transfer.md rule R99). -/
def execLdaIndx (b : Byte) (s : State) : Host.Outcome State Fault Refusal :=
  .next (loadReg .a (.mem (.indx b)) s)

/-- LDA (INDY): load A (41_load_store_transfer.md rule R99). -/
def execLdaIndy (b : Byte) (s : State) : Host.Outcome State Fault Refusal :=
  .next (loadReg .a (.mem (.indy b)) s)

/-- LDA (ABS): load A (41_load_store_transfer.md rule R99). -/
def execLdaAbs (lo hi : Byte) (s : State) : Host.Outcome State Fault Refusal :=
  .next (loadReg .a (.mem (.abs lo hi)) s)

/-- LDA (ABSY): load A (41_load_store_transfer.md rule R99). -/
def execLdaAbsy (lo hi : Byte) (s : State) : Host.Outcome State Fault Refusal :=
  .next (loadReg .a (.mem (.absy lo hi)) s)

/-- LDX (IMM): load X (41_load_store_transfer.md rule R100). -/
def execLdxImm (b : Byte) (s : State) : Host.Outcome State Fault Refusal :=
  .next (loadReg .x (.imm b) s)

/-- LDX (ZP): load X (41_load_store_transfer.md rule R100). -/
def execLdxZp (b : Byte) (s : State) : Host.Outcome State Fault Refusal :=
  .next (loadReg .x (.mem (.zp b)) s)

/-- LDX (ABS): load X (41_load_store_transfer.md rule R100). -/
def execLdxAbs (lo hi : Byte) (s : State) : Host.Outcome State Fault Refusal :=
  .next (loadReg .x (.mem (.abs lo hi)) s)

/-- LDX (ABSY): load X (41_load_store_transfer.md rule R100). -/
def execLdxAbsy (lo hi : Byte) (s : State) : Host.Outcome State Fault Refusal :=
  .next (loadReg .x (.mem (.absy lo hi)) s)

/-- LDY (IMM): load Y (41_load_store_transfer.md rule R101). -/
def execLdyImm (b : Byte) (s : State) : Host.Outcome State Fault Refusal :=
  .next (loadReg .y (.imm b) s)

/-- LDY (ZP): load Y (41_load_store_transfer.md rule R101). -/
def execLdyZp (b : Byte) (s : State) : Host.Outcome State Fault Refusal :=
  .next (loadReg .y (.mem (.zp b)) s)

/-- LDY (ZPX): load Y (41_load_store_transfer.md rule R101). -/
def execLdyZpx (b : Byte) (s : State) : Host.Outcome State Fault Refusal :=
  .next (loadReg .y (.mem (.zpx b)) s)

/-- LDY (ABS): load Y (41_load_store_transfer.md rule R101). -/
def execLdyAbs (lo hi : Byte) (s : State) : Host.Outcome State Fault Refusal :=
  .next (loadReg .y (.mem (.abs lo hi)) s)

/-- STA (ZP): store A (41_load_store_transfer.md rule R102). -/
def execStaZp (b : Byte) (s : State) : Host.Outcome State Fault Refusal :=
  .next (storeReg .a (.zp b) s)

/-- STA (ZPX): store A (41_load_store_transfer.md rule R102). -/
def execStaZpx (b : Byte) (s : State) : Host.Outcome State Fault Refusal :=
  .next (storeReg .a (.zpx b) s)

/-- STA (INDX): store A (41_load_store_transfer.md rule R102). -/
def execStaIndx (b : Byte) (s : State) : Host.Outcome State Fault Refusal :=
  .next (storeReg .a (.indx b) s)

/-- STA (INDY): store A (41_load_store_transfer.md rule R102). -/
def execStaIndy (b : Byte) (s : State) : Host.Outcome State Fault Refusal :=
  .next (storeReg .a (.indy b) s)

/-- STA (ABS): store A (41_load_store_transfer.md rule R102). -/
def execStaAbs (lo hi : Byte) (s : State) : Host.Outcome State Fault Refusal :=
  .next (storeReg .a (.abs lo hi) s)

/-- STA (ABSY): store A (41_load_store_transfer.md rule R102). -/
def execStaAbsy (lo hi : Byte) (s : State) : Host.Outcome State Fault Refusal :=
  .next (storeReg .a (.absy lo hi) s)

/-- STX (ZP): store X (41_load_store_transfer.md rule R103). -/
def execStxZp (b : Byte) (s : State) : Host.Outcome State Fault Refusal :=
  .next (storeReg .x (.zp b) s)

/-- STX (ABS): store X (41_load_store_transfer.md rule R103). -/
def execStxAbs (lo hi : Byte) (s : State) : Host.Outcome State Fault Refusal :=
  .next (storeReg .x (.abs lo hi) s)

/-- STY (ZP): store Y (41_load_store_transfer.md rule R104). -/
def execStyZp (b : Byte) (s : State) : Host.Outcome State Fault Refusal :=
  .next (storeReg .y (.zp b) s)

/-- STY (ZPX): store Y (41_load_store_transfer.md rule R104). -/
def execStyZpx (b : Byte) (s : State) : Host.Outcome State Fault Refusal :=
  .next (storeReg .y (.zpx b) s)

/-- STY (ABS): store Y (41_load_store_transfer.md rule R104). -/
def execStyAbs (lo hi : Byte) (s : State) : Host.Outcome State Fault Refusal :=
  .next (storeReg .y (.abs lo hi) s)

end Sys2Proof.Machine
end

