-- ==== Sys2Proof/Machine/Shift.lean ====
section
/-! DEFINITION. The meanings of the shifts and rotates, 42_alu.md section 6. A meaning starts after the fetch: PC is
already the address of the next instruction (10_state.md rule R28). -/

namespace Sys2Proof.Machine

/-- ASL (A): arithmetic shift left (42_alu.md rule R132). -/
def execAslAcc (s : State) : Host.Outcome State Fault Refusal :=
  .next (shiftAcc aslBits s)

/-- ASL (ZP): arithmetic shift left (42_alu.md rule R132). -/
def execAslZp (b : Byte) (s : State) : Host.Outcome State Fault Refusal :=
  .next (shiftMem aslBits (.zp b) s)

/-- ASL (ZPX): arithmetic shift left (42_alu.md rule R132). -/
def execAslZpx (b : Byte) (s : State) : Host.Outcome State Fault Refusal :=
  .next (shiftMem aslBits (.zpx b) s)

/-- ASL (ABS): arithmetic shift left (42_alu.md rule R132). -/
def execAslAbs (lo hi : Byte) (s : State) : Host.Outcome State Fault Refusal :=
  .next (shiftMem aslBits (.abs lo hi) s)

/-- LSR (A): logical shift right (42_alu.md rule R133). -/
def execLsrAcc (s : State) : Host.Outcome State Fault Refusal :=
  .next (shiftAcc lsrBits s)

/-- LSR (ZP): logical shift right (42_alu.md rule R133). -/
def execLsrZp (b : Byte) (s : State) : Host.Outcome State Fault Refusal :=
  .next (shiftMem lsrBits (.zp b) s)

/-- LSR (ZPX): logical shift right (42_alu.md rule R133). -/
def execLsrZpx (b : Byte) (s : State) : Host.Outcome State Fault Refusal :=
  .next (shiftMem lsrBits (.zpx b) s)

/-- LSR (ABS): logical shift right (42_alu.md rule R133). -/
def execLsrAbs (lo hi : Byte) (s : State) : Host.Outcome State Fault Refusal :=
  .next (shiftMem lsrBits (.abs lo hi) s)

/-- ROL (A): rotate left through carry (42_alu.md rule R134). -/
def execRolAcc (s : State) : Host.Outcome State Fault Refusal :=
  .next (shiftAcc rolBits s)

/-- ROL (ZP): rotate left through carry (42_alu.md rule R134). -/
def execRolZp (b : Byte) (s : State) : Host.Outcome State Fault Refusal :=
  .next (shiftMem rolBits (.zp b) s)

/-- ROL (ZPX): rotate left through carry (42_alu.md rule R134). -/
def execRolZpx (b : Byte) (s : State) : Host.Outcome State Fault Refusal :=
  .next (shiftMem rolBits (.zpx b) s)

/-- ROL (ABS): rotate left through carry (42_alu.md rule R134). -/
def execRolAbs (lo hi : Byte) (s : State) : Host.Outcome State Fault Refusal :=
  .next (shiftMem rolBits (.abs lo hi) s)

/-- ROR (A): rotate right through carry (42_alu.md rule R135). -/
def execRorAcc (s : State) : Host.Outcome State Fault Refusal :=
  .next (shiftAcc rorBits s)

/-- ROR (ZP): rotate right through carry (42_alu.md rule R135). -/
def execRorZp (b : Byte) (s : State) : Host.Outcome State Fault Refusal :=
  .next (shiftMem rorBits (.zp b) s)

/-- ROR (ZPX): rotate right through carry (42_alu.md rule R135). -/
def execRorZpx (b : Byte) (s : State) : Host.Outcome State Fault Refusal :=
  .next (shiftMem rorBits (.zpx b) s)

/-- ROR (ABS): rotate right through carry (42_alu.md rule R135). -/
def execRorAbs (lo hi : Byte) (s : State) : Host.Outcome State Fault Refusal :=
  .next (shiftMem rorBits (.abs lo hi) s)

end Sys2Proof.Machine
end

