-- ==== Sys2Proof/Machine/Transfer.lean ====
section
/-! DEFINITION. The meanings of the register transfers and stack moves, 41_load_store_transfer.md sections 3 and 4. A meaning starts after the fetch: PC is
already the address of the next instruction (10_state.md rule R28). -/

namespace Sys2Proof.Machine

/-- TAX (IMP): transfer A to X (41_load_store_transfer.md rule R105). -/
def execTax (s : State) : Host.Outcome State Fault Refusal :=
  .next (writeReg .x (s.reg .a) s)

/-- TAY (IMP): transfer A to Y (41_load_store_transfer.md rule R106). -/
def execTay (s : State) : Host.Outcome State Fault Refusal :=
  .next (writeReg .y (s.reg .a) s)

/-- TXA (IMP): transfer X to A (41_load_store_transfer.md rule R107). -/
def execTxa (s : State) : Host.Outcome State Fault Refusal :=
  .next (writeReg .a (s.reg .x) s)

/-- TYA (IMP): transfer Y to A (41_load_store_transfer.md rule R108). -/
def execTya (s : State) : Host.Outcome State Fault Refusal :=
  .next (writeReg .a (s.reg .y) s)

/-- TSX (IMP): transfer SP to X, a register write (41_load_store_transfer.md rule R109). -/
def execTsx (s : State) : Host.Outcome State Fault Refusal :=
  .next (writeReg .x s.sp s)

/-- TXS (IMP): transfer X to SP, no flag (41_load_store_transfer.md rule R110). -/
def execTxs (s : State) : Host.Outcome State Fault Refusal :=
  .next (s.setSp (s.reg .x))

/-- PHA (IMP): push A, no flag (41_load_store_transfer.md rule R111). -/
def execPha (s : State) : Host.Outcome State Fault Refusal :=
  .next (push (s.reg .a) s)

/-- PLA (IMP): pull A, a register write (41_load_store_transfer.md rule R112). -/
def execPla (s : State) : Host.Outcome State Fault Refusal :=
  .next (writeReg .a (pull s).1 (pull s).2)

end Sys2Proof.Machine
end

