-- ==== Sys2Proof/Machine/Dispatch.lean ====
section
/-! DEFINITION. The one dispatch: one arm per constructor of Instr, each one direct call of its meaning. -/

namespace Sys2Proof.Machine

def exec (i : Instr) (s : State) : Host.Outcome State Fault Refusal :=
  match i with
  | .ldaImm b => Sys2Proof.Machine.execLdaImm b s
  | .ldaZp b => Sys2Proof.Machine.execLdaZp b s
  | .ldaZpx b => Sys2Proof.Machine.execLdaZpx b s
  | .ldaIndx b => Sys2Proof.Machine.execLdaIndx b s
  | .ldaIndy b => Sys2Proof.Machine.execLdaIndy b s
  | .ldaAbs lo hi => Sys2Proof.Machine.execLdaAbs lo hi s
  | .ldaAbsy lo hi => Sys2Proof.Machine.execLdaAbsy lo hi s
  | .ldxImm b => Sys2Proof.Machine.execLdxImm b s
  | .ldxZp b => Sys2Proof.Machine.execLdxZp b s
  | .ldxAbs lo hi => Sys2Proof.Machine.execLdxAbs lo hi s
  | .ldxAbsy lo hi => Sys2Proof.Machine.execLdxAbsy lo hi s
  | .ldyImm b => Sys2Proof.Machine.execLdyImm b s
  | .ldyZp b => Sys2Proof.Machine.execLdyZp b s
  | .ldyZpx b => Sys2Proof.Machine.execLdyZpx b s
  | .ldyAbs lo hi => Sys2Proof.Machine.execLdyAbs lo hi s
  | .staZp b => Sys2Proof.Machine.execStaZp b s
  | .staZpx b => Sys2Proof.Machine.execStaZpx b s
  | .staIndx b => Sys2Proof.Machine.execStaIndx b s
  | .staIndy b => Sys2Proof.Machine.execStaIndy b s
  | .staAbs lo hi => Sys2Proof.Machine.execStaAbs lo hi s
  | .staAbsy lo hi => Sys2Proof.Machine.execStaAbsy lo hi s
  | .stxZp b => Sys2Proof.Machine.execStxZp b s
  | .stxAbs lo hi => Sys2Proof.Machine.execStxAbs lo hi s
  | .styZp b => Sys2Proof.Machine.execStyZp b s
  | .styZpx b => Sys2Proof.Machine.execStyZpx b s
  | .styAbs lo hi => Sys2Proof.Machine.execStyAbs lo hi s
  | .tax => Sys2Proof.Machine.execTax s
  | .tay => Sys2Proof.Machine.execTay s
  | .txa => Sys2Proof.Machine.execTxa s
  | .tya => Sys2Proof.Machine.execTya s
  | .tsx => Sys2Proof.Machine.execTsx s
  | .txs => Sys2Proof.Machine.execTxs s
  | .pha => Sys2Proof.Machine.execPha s
  | .pla => Sys2Proof.Machine.execPla s
  | .adcImm b => Sys2Proof.Machine.execAdcImm b s
  | .adcZp b => Sys2Proof.Machine.execAdcZp b s
  | .adcZpx b => Sys2Proof.Machine.execAdcZpx b s
  | .adcIndx b => Sys2Proof.Machine.execAdcIndx b s
  | .adcIndy b => Sys2Proof.Machine.execAdcIndy b s
  | .adcAbs lo hi => Sys2Proof.Machine.execAdcAbs lo hi s
  | .adcAbsy lo hi => Sys2Proof.Machine.execAdcAbsy lo hi s
  | .sbcImm b => Sys2Proof.Machine.execSbcImm b s
  | .sbcZp b => Sys2Proof.Machine.execSbcZp b s
  | .sbcZpx b => Sys2Proof.Machine.execSbcZpx b s
  | .sbcIndx b => Sys2Proof.Machine.execSbcIndx b s
  | .sbcIndy b => Sys2Proof.Machine.execSbcIndy b s
  | .sbcAbs lo hi => Sys2Proof.Machine.execSbcAbs lo hi s
  | .sbcAbsy lo hi => Sys2Proof.Machine.execSbcAbsy lo hi s
  | .andImm b => Sys2Proof.Machine.execAndImm b s
  | .andZp b => Sys2Proof.Machine.execAndZp b s
  | .andZpx b => Sys2Proof.Machine.execAndZpx b s
  | .andIndx b => Sys2Proof.Machine.execAndIndx b s
  | .andIndy b => Sys2Proof.Machine.execAndIndy b s
  | .andAbs lo hi => Sys2Proof.Machine.execAndAbs lo hi s
  | .andAbsy lo hi => Sys2Proof.Machine.execAndAbsy lo hi s
  | .oraImm b => Sys2Proof.Machine.execOraImm b s
  | .oraZp b => Sys2Proof.Machine.execOraZp b s
  | .oraZpx b => Sys2Proof.Machine.execOraZpx b s
  | .oraIndx b => Sys2Proof.Machine.execOraIndx b s
  | .oraIndy b => Sys2Proof.Machine.execOraIndy b s
  | .oraAbs lo hi => Sys2Proof.Machine.execOraAbs lo hi s
  | .oraAbsy lo hi => Sys2Proof.Machine.execOraAbsy lo hi s
  | .eorImm b => Sys2Proof.Machine.execEorImm b s
  | .eorZp b => Sys2Proof.Machine.execEorZp b s
  | .eorZpx b => Sys2Proof.Machine.execEorZpx b s
  | .eorIndx b => Sys2Proof.Machine.execEorIndx b s
  | .eorIndy b => Sys2Proof.Machine.execEorIndy b s
  | .eorAbs lo hi => Sys2Proof.Machine.execEorAbs lo hi s
  | .eorAbsy lo hi => Sys2Proof.Machine.execEorAbsy lo hi s
  | .cmpImm b => Sys2Proof.Machine.execCmpImm b s
  | .cmpZp b => Sys2Proof.Machine.execCmpZp b s
  | .cmpZpx b => Sys2Proof.Machine.execCmpZpx b s
  | .cmpIndx b => Sys2Proof.Machine.execCmpIndx b s
  | .cmpIndy b => Sys2Proof.Machine.execCmpIndy b s
  | .cmpAbs lo hi => Sys2Proof.Machine.execCmpAbs lo hi s
  | .cmpAbsy lo hi => Sys2Proof.Machine.execCmpAbsy lo hi s
  | .cpxImm b => Sys2Proof.Machine.execCpxImm b s
  | .cpxZp b => Sys2Proof.Machine.execCpxZp b s
  | .cpxAbs lo hi => Sys2Proof.Machine.execCpxAbs lo hi s
  | .cpyImm b => Sys2Proof.Machine.execCpyImm b s
  | .cpyZp b => Sys2Proof.Machine.execCpyZp b s
  | .cpyAbs lo hi => Sys2Proof.Machine.execCpyAbs lo hi s
  | .bitZp b => Sys2Proof.Machine.execBitZp b s
  | .bitAbs lo hi => Sys2Proof.Machine.execBitAbs lo hi s
  | .incZp b => Sys2Proof.Machine.execIncZp b s
  | .incZpx b => Sys2Proof.Machine.execIncZpx b s
  | .incAbs lo hi => Sys2Proof.Machine.execIncAbs lo hi s
  | .decZp b => Sys2Proof.Machine.execDecZp b s
  | .decZpx b => Sys2Proof.Machine.execDecZpx b s
  | .decAbs lo hi => Sys2Proof.Machine.execDecAbs lo hi s
  | .inx => Sys2Proof.Machine.execInx s
  | .iny => Sys2Proof.Machine.execIny s
  | .dex => Sys2Proof.Machine.execDex s
  | .dey => Sys2Proof.Machine.execDey s
  | .aslAcc => Sys2Proof.Machine.execAslAcc s
  | .aslZp b => Sys2Proof.Machine.execAslZp b s
  | .aslZpx b => Sys2Proof.Machine.execAslZpx b s
  | .aslAbs lo hi => Sys2Proof.Machine.execAslAbs lo hi s
  | .lsrAcc => Sys2Proof.Machine.execLsrAcc s
  | .lsrZp b => Sys2Proof.Machine.execLsrZp b s
  | .lsrZpx b => Sys2Proof.Machine.execLsrZpx b s
  | .lsrAbs lo hi => Sys2Proof.Machine.execLsrAbs lo hi s
  | .rolAcc => Sys2Proof.Machine.execRolAcc s
  | .rolZp b => Sys2Proof.Machine.execRolZp b s
  | .rolZpx b => Sys2Proof.Machine.execRolZpx b s
  | .rolAbs lo hi => Sys2Proof.Machine.execRolAbs lo hi s
  | .rorAcc => Sys2Proof.Machine.execRorAcc s
  | .rorZp b => Sys2Proof.Machine.execRorZp b s
  | .rorZpx b => Sys2Proof.Machine.execRorZpx b s
  | .rorAbs lo hi => Sys2Proof.Machine.execRorAbs lo hi s
  | .jmp lo hi => Sys2Proof.Machine.execJmp lo hi s
  | .jsr lo hi => Sys2Proof.Machine.execJsr lo hi s
  | .rts => Sys2Proof.Machine.execRts s
  | .bpl o => Sys2Proof.Machine.execBpl o s
  | .bmi o => Sys2Proof.Machine.execBmi o s
  | .bcc o => Sys2Proof.Machine.execBcc o s
  | .bcs o => Sys2Proof.Machine.execBcs o s
  | .bne o => Sys2Proof.Machine.execBne o s
  | .beq o => Sys2Proof.Machine.execBeq o s
  | .clc => Sys2Proof.Machine.execClc s
  | .sec => Sys2Proof.Machine.execSec s
  | .nop => Sys2Proof.Machine.execNop s
  | .brk => Sys2Proof.Machine.execBrk s

end Sys2Proof.Machine
end

