-- ==== Sys2Proof/Machine/Fetch.lean ====
section
/-! DEFINITION. Fetching an instruction: the opcode byte, then, if OPCODE_TABLE has an entry for it, exactly the operand
bytes its mode consumes, each through the bus (40_step_and_addressing.md rules R78, R82 and R97). -/

namespace Sys2Proof.Machine

/-- Fetch `k` bytes in order (20_memory.md rule R49). -/
def fetchBytes : Nat → State → List Byte × State
  | 0, s => ([], s)
  | k + 1, s =>
    let b := fetch s
    let bs := fetchBytes k b.2
    (b.1 :: bs.1, bs.2)

/-- Fetch and decode one instruction: steps (1) and (2) of rule R78 and the operand consumption of step (3). An opcode
with no entry consumes no operand byte (60_exceptions.md rule R150). -/
def fetchInstr (s : State) : Except DecodeError Instr × State :=
  let op := fetch s
  match lookup s.cfg.table op.1 with
  | none => (.error (.unknownOpcode op.1), op.2)
  | some d =>
    let bs := fetchBytes d.mode.operandBytes op.2
    ((decode s.cfg.table (op.1 :: bs.1)).map (fun r => r.1), bs.2)

/-- Store bytes at consecutive addresses modulo 65536, raw: the copy of the host's `load` (20_memory.md rule R59). -/
def pokeBytes (bs : List Byte) (origin : Addr) (s : State) : State :=
  match bs with
  | [] => s
  | b :: rest => pokeBytes rest (origin + 1) (s.poke origin b)

end Sys2Proof.Machine
end

