-- ==== Sys2Proof/Machine/Step.lean ====
section
/-! DEFINITION. `step()`, 40_step_and_addressing.md rules R78 and R79, and where a word is placed for it to be fetched. -/

namespace Sys2Proof.Machine

/-- `step()`: in HALTED and FAULTED nothing changes (rule R79); in RUNNING one instruction is fetched, decoded and
executed, and an opcode with no entry takes the exception (rules R78, R150). A configuration that fails 00_scope.md
rule R11 or 30_encoding.md rule R70 is refused (log entry 10); under one that passes, no decode error but
`unknownOpcode` can occur. -/
def step (s : State) : Host.Outcome State Fault Refusal :=
  match s.runState with
  | .halted => .next s
  | .faulted => .next s
  | .running =>
    if s.cfg.wf then
      match fetchInstr s with
      | (.ok i, s1) => exec i s1
      | (.error (.unknownOpcode op), s1) => .next (raiseUnknownOpcode op s1)
      | (.error _, _) => .refused .illFormedConfig
    else .refused .illFormedConfig

/-- The state with a table word's bytes stored, raw, from PC on, where the next step fetches (log entry 14). Nothing else
changes; a machine that is not RUNNING fetches nothing (rule R79). -/
def State.withFetchWord (s : State) (nbits w : Nat) : State := pokeBytes (tableWordBytes nbits w) s.pc s

end Sys2Proof.Machine
end

