-- ==== Sys2Proof/Machine/HostOps.lean ====
section
/-! DEFINITION. What the host does with the core between steps, 60_exceptions.md section 5: load, the input latch, read-only
inspection, the step's outcome, and `run`, here with fuel and with a schedule of what the host does before each step. -/

namespace Sys2Proof.Machine

/-- `load(bytes, origin)`: a raw copy that changes no register, flag, PC or SP and emits no event (20_memory.md rule R59,
decisions D11 and D25). -/
def hostLoad (bytes : List Byte) (origin : Addr) (s : State) : State := pokeBytes bytes origin s

/-- The host records a new input code (10_state.md rule R33). -/
def hostInput (v : Byte) (s : State) : State := { s with input := v }

/-- Everything the host may change in the core, and only between steps (60_exceptions.md rules R159 and R161). -/
inductive HostAct where
  | load (bytes : List Byte) (origin : Addr)
  | setInput (v : Byte)
deriving DecidableEq, Repr

/-- Apply one act of the host, in any run state. DESIGN CHOICE (log entry 18): the spec does not say whether the host may
still load or set INPUT once the core is HALTED or FAULTED; here it may, and the core stays in that run state. -/
def applyAct (act : HostAct) (s : State) : State :=
  match act with
  | .load bytes origin => hostLoad bytes origin s
  | .setInput v => hostInput v s

/-- Apply the host's acts in order. -/
def applyActs (acts : List HostAct) (s : State) : State := acts.foldl (fun t act => applyAct act t) s

/-- What `step()` and `run()` return to the host (10_state.md rule R36). -/
inductive StepReturn where
  | running
  | halted
  | faulted (op : Byte) (pc : Addr)
deriving DecidableEq, Repr

/-- The outcome the host sees for a state. The fault record is read only in FAULTED, where it is set (10_state.md
rule R32, 93_implementation_defined.md U11); `none` would be a FAULTED state without a record, which no run reaches. -/
def stepReturn (s : State) : Option StepReturn :=
  match s.runState with
  | .running => some .running
  | .halted => some .halted
  | .faulted => s.fault.map (fun r => .faulted r.opcode r.pc)

/-- Inspection of memory: the raw stored byte, without a draw and without INPUT (60_exceptions.md rule R160). -/
def inspectMem (s : State) (a : Addr) : Byte := s.peek a

/-- Inspection of the fault record: unset outside FAULTED (10_state.md rule R32). -/
def inspectFault (s : State) : Option FaultRecord := if s.runState = .faulted then s.fault else none

/-- The `write_pixel` events so far, in order (20_memory.md rule R44, 70_reset_and_hazards.md rule R170). -/
def pixelEvents (s : State) : List Event :=
  s.trace.filter (fun e => match e with
    | .pixel _ _ _ => true
    | .read _ => false
    | .write _ _ => false)

/-- `run()` with fuel: repeat `step()` while RUNNING (40_step_and_addressing.md rule R80). Fuel is the executor's; a run
that still is RUNNING when it ends has not terminated. -/
def run : Nat → State → Host.Outcome State Fault Refusal
  | 0, s => .next s
  | k + 1, s =>
    if s.runState = .running then
      match step s with
      | .next t => run k t
      | .fault r => .fault r
      | .refused r => .refused r
    else .next s

/-- A run in which the host acts before each step: one list of acts a step, "delivering new input values between steps"
(10_state.md rule R33). It ends in the first state that is not RUNNING (70_reset_and_hazards.md rule R170); acts scheduled
later are not applied. A claim about programs that read INPUT quantifies over the schedule (log entry 13). -/
def runSchedule : List (List HostAct) → State → Host.Outcome State Fault Refusal
  | [], s => .next s
  | acts :: rest, s =>
    if s.runState = .running then
      match step (applyActs acts s) with
      | .next t => runSchedule rest t
      | .fault r => .fault r
      | .refused r => .refused r
    else .next s

end Sys2Proof.Machine
end

