-- ==== Sys2Proof/Safety.lean ====
section
/-! DEFINITION. The terms the claims use: the bus events an operand form or a write causes, what a result state keeps, the
count of bus accesses of 40_step_and_addressing.md rule R82, the closed lists of flag, SP and memory writers, the
invariant of the machine, and runs of pushes, pulls, calls and returns. -/

namespace Sys2Proof.Machine

/-! ### Events -/

/-- An event that is a bus access, not a pixel event (00_scope.md rule R14). -/
def Event.isBus : Event → Bool
  | .read _ => true
  | .write _ _ => true
  | .pixel _ _ _ => false

/-- How many bus accesses a list of events holds. -/
def busCount (evs : List Event) : Nat := evs.countP Event.isBus

/-- How many of the events are reads of RANDOM_ADDR, each one draw (20_memory.md rule R42). -/
def drawsIn (cfg : Config) (evs : List Event) : Nat := evs.countP (fun e => e == .read cfg.randomAddr)

/-- A state after bus reads with these events: the draws among them are counted, nothing else changes. -/
def State.note (s : State) (evs : List Event) : State :=
  { s with draws := s.draws + drawsIn s.cfg evs, trace := s.trace ++ evs }

/-- The events of one bus write: the write, then the pixel event of the output range (20_memory.md rules R41 and R44). -/
def writeEvents (cfg : Config) (a : Addr) (v : Byte) : List Event :=
  if cfg.inOutput a then [.write a v, pixelEvent cfg a v] else [.write a v]

/-- The pointer reads of an indirect mode, low byte then high byte; none for the other modes
(40_step_and_addressing.md rule R82, item 3). -/
def AddrForm.pointerEvents (f : AddrForm) (s : State) : List Event :=
  match f with
  | .zp _ => []
  | .zpx _ => []
  | .indx b => [.read (zext16 (b + s.x)), .read (ptrHi s.cfg (b + s.x))]
  | .indy b => [.read (zext16 b), .read (ptrHi s.cfg b)]
  | .abs _ _ => []
  | .absy _ _ => []

/-- The bus reads that give an operand value: the pointer reads, then one data read (rules R82 and R84). -/
def Source.events (src : Source) (s : State) : List Event :=
  match src with
  | .imm _ => []
  | .mem f => f.pointerEvents s ++ [.read (effAddr f s).1]

/-- The bus reads of fetching `k` bytes from `pc` on (20_memory.md rule R49). -/
def fetchEvents : Nat → Addr → List Event
  | 0, _ => []
  | k + 1, pc => .read pc :: fetchEvents k (pc + 1)

/-! ### What a result state keeps -/

/-- Every general register outside `except`, the parameters, the run state, the fault record and INPUT are as before. -/
def Keeps (except : List Reg) (s t : State) : Prop :=
  (∀ r, r ∉ except → t.reg r = s.reg r) ∧ t.cfg = s.cfg ∧ t.runState = s.runState ∧ t.fault = s.fault ∧
    t.input = s.input

/-- All three flags are as before. -/
def KeepsFlags (s t : State) : Prop := t.c = s.c ∧ t.z = s.z ∧ t.n = s.n

/-- Every byte of memory reads as before, and memory is the same data. -/
def KeepsMem (s t : State) : Prop := (∀ a, t.peek a = s.peek a) ∧ t.mem = s.mem

/-- The byte at `a` is `v` and every other byte of memory reads as before. -/
def StoresOnly (a : Addr) (v : Byte) (s t : State) : Prop := ∀ b, t.peek b = if b = a then v else s.peek b

/-- Z and N are those of the value `v` (10_state.md rule R24). -/
def FlagsOf (v : Byte) (t : State) : Prop := t.z = decide (v = 0) ∧ t.n = v.getLsbD 7

/-- Exactly these events happened, and the draws among them were counted. -/
def BusDoes (evs : List Event) (s t : State) : Prop :=
  t.trace = s.trace ++ evs ∧ t.draws = s.draws + drawsIn s.cfg evs

/-! ### Values -/

/-- What a core read of an address returns: a draw, INPUT or the stored byte (20_memory.md rules R40, R42, R43, R45). -/
def coreByte (a : Addr) (s : State) : Byte :=
  if a = s.cfg.randomAddr then Config.randomByte s.draws else if a = s.cfg.inputAddr then s.input else s.peek a

/-- The operand value: the immediate byte, or what a core read of the effective address returns after the pointer reads
(40_step_and_addressing.md rule R84). -/
def operandValue (src : Source) (s : State) : Byte :=
  match src with
  | .imm b => b
  | .mem f => coreByte (effAddr f s).1 (s.note (f.pointerEvents s))

/-! ### What the instructions of one shape do: each says that `exec` answers a next state, what is in it, and its frame -/

/-- A load: the register takes the operand value, Z and N come from it. -/
def LoadsReg (op : Byte) (r : Reg) (i : Instr) (src : Source) (s : State) : Prop :=
  i.opcode = op ∧ ∃ t, exec i s = .next t ∧ t.reg r = operandValue src s ∧ FlagsOf (operandValue src s) t ∧ t.c = s.c ∧
    t.sp = s.sp ∧ t.pc = s.pc ∧ Keeps [r] s t ∧ KeepsMem s t ∧ BusDoes (src.events s) s t

/-- A store: the byte at the effective address becomes the register's. -/
def StoresReg (op : Byte) (r : Reg) (i : Instr) (f : AddrForm) (s : State) : Prop :=
  i.opcode = op ∧ ∃ t, exec i s = .next t ∧ StoresOnly (effAddr f s).1 (s.reg r) s t ∧ KeepsFlags s t ∧
    t.sp = s.sp ∧ t.pc = s.pc ∧ Keeps [] s t ∧
    BusDoes (f.pointerEvents s ++ writeEvents s.cfg (effAddr f s).1 (s.reg r)) s t

/-- ADC: A takes wrap8(A + M + C), C whether the sum exceeds 255. -/
def AddsWithCarry (op : Byte) (i : Instr) (src : Source) (s : State) : Prop :=
  i.opcode = op ∧ ∃ t, exec i s = .next t ∧
    t.a.toNat = (s.a.toNat + (operandValue src s).toNat + bitNat s.c) % 256 ∧
    t.c = decide (255 < s.a.toNat + (operandValue src s).toNat + bitNat s.c) ∧ FlagsOf t.a t ∧
    t.sp = s.sp ∧ t.pc = s.pc ∧ Keeps [.a] s t ∧ KeepsMem s t ∧ BusDoes (src.events s) s t

/-- SBC: A takes wrap8(A - M - (1 - C)), C whether the difference is not negative. -/
def SubtractsWithBorrow (op : Byte) (i : Instr) (src : Source) (s : State) : Prop :=
  i.opcode = op ∧ ∃ t, exec i s = .next t ∧
    (t.a.toNat : Int) = ((s.a.toNat : Int) - (operandValue src s).toNat - (1 - bitNat s.c)) % 256 ∧
    t.c = decide (0 ≤ (s.a.toNat : Int) - (operandValue src s).toNat - (1 - bitNat s.c)) ∧ FlagsOf t.a t ∧
    t.sp = s.sp ∧ t.pc = s.pc ∧ Keeps [.a] s t ∧ KeepsMem s t ∧ BusDoes (src.events s) s t

/-- AND, ORA, EOR: A takes the bitwise result, C is unchanged. -/
def CombinesBits (f : Byte → Byte → Byte) (op : Byte) (i : Instr) (src : Source) (s : State) : Prop :=
  i.opcode = op ∧ ∃ t, exec i s = .next t ∧ t.a = f s.a (operandValue src s) ∧ FlagsOf t.a t ∧ t.c = s.c ∧
    t.sp = s.sp ∧ t.pc = s.pc ∧ Keeps [.a] s t ∧ KeepsMem s t ∧ BusDoes (src.events s) s t

/-- CMP, CPX, CPY: C = register >= operand unsigned, Z = equal, N = bit 7 of the difference; no register changes. -/
def ComparesReg (op : Byte) (r : Reg) (i : Instr) (src : Source) (s : State) : Prop :=
  i.opcode = op ∧ ∃ t, exec i s = .next t ∧ t.c = decide ((operandValue src s).toNat ≤ (s.reg r).toNat) ∧
    t.z = decide (s.reg r = operandValue src s) ∧ t.n = (s.reg r - operandValue src s).getLsbD 7 ∧
    t.sp = s.sp ∧ t.pc = s.pc ∧ Keeps [] s t ∧ KeepsMem s t ∧ BusDoes (src.events s) s t

/-- BIT: Z from A AND M, N from bit 7 of M, C unchanged. -/
def TestsBits (op : Byte) (i : Instr) (f : AddrForm) (s : State) : Prop :=
  i.opcode = op ∧ ∃ t, exec i s = .next t ∧ t.z = decide (s.a &&& operandValue (.mem f) s = 0) ∧
    t.n = (operandValue (.mem f) s).getLsbD 7 ∧ t.c = s.c ∧
    t.sp = s.sp ∧ t.pc = s.pc ∧ Keeps [] s t ∧ KeepsMem s t ∧ BusDoes ((Source.mem f).events s) s t

/-- INC and DEC: one read and one write of the byte at the effective address, Z and N from the new byte. -/
def StepsMem (g : Byte → Byte) (op : Byte) (i : Instr) (f : AddrForm) (s : State) : Prop :=
  i.opcode = op ∧ ∃ t, exec i s = .next t ∧
    StoresOnly (effAddr f s).1 (g (operandValue (.mem f) s)) s t ∧ FlagsOf (g (operandValue (.mem f) s)) t ∧ t.c = s.c ∧
    t.sp = s.sp ∧ t.pc = s.pc ∧ Keeps [] s t ∧
    BusDoes ((Source.mem f).events s ++ writeEvents s.cfg (effAddr f s).1 (g (operandValue (.mem f) s))) s t

/-- The accumulator form of a shift: A takes the result, C the bit shifted out. -/
def ShiftsAcc (result : Nat) (out : Bool) (op : Byte) (i : Instr) (s : State) : Prop :=
  i.opcode = op ∧ exec i s = .next { s with
    a := BitVec.ofNat 8 result, c := out, z := decide (result % 256 = 0), n := decide (128 ≤ result % 256) }

/-- The memory form of a shift: one read and one write of the byte at the effective address; `g` is the result and `out`
the bit shifted out, of the byte read and the old carry. -/
def ShiftsMem (g : Byte → Bool → Nat) (out : Byte → Bool) (op : Byte) (i : Instr) (f : AddrForm) (s : State) : Prop :=
  i.opcode = op ∧ ∃ t, exec i s = .next t ∧
    StoresOnly (effAddr f s).1 (BitVec.ofNat 8 (g (operandValue (.mem f) s) s.c)) s t ∧
    FlagsOf (BitVec.ofNat 8 (g (operandValue (.mem f) s) s.c)) t ∧ t.c = out (operandValue (.mem f) s) ∧
    t.sp = s.sp ∧ t.pc = s.pc ∧ Keeps [] s t ∧
    BusDoes ((Source.mem f).events s ++
      writeEvents s.cfg (effAddr f s).1 (BitVec.ofNat 8 (g (operandValue (.mem f) s) s.c))) s t

/-- A conditional branch: PC becomes wrap16(PC + sext_8(o)) if the predicate holds and stays otherwise; nothing else
changes and no memory is read. -/
def Branches (p : Bool) (op : Byte) (i : Instr) (o : Byte) (s : State) : Prop :=
  i.opcode = op ∧
    exec i s = .next { s with pc := if p then BitVec.ofInt 16 ((s.pc.toNat : Int) + o.toInt) else s.pc }

/-! ### The bus accesses of an instruction -/

/-- The pointer reads of a mode (40_step_and_addressing.md rule R82). -/
def pointerReads : Mode → Nat
  | .indx => 2
  | .indy => 2
  | .imp => 0
  | .imm => 0
  | .zp => 0
  | .zpx => 0
  | .abs => 0
  | .absy => 0
  | .rel => 0

/-- The data accesses of an instruction, by its descriptor (40_step_and_addressing.md rule R82, item 4): two for a
read-modify-write of memory, JSR and RTS, one for a memory operand read or written, PHA and PLA, else none. -/
def dataAccesses (d : Descriptor) : Nat :=
  if d.mnemonic ∈ [.jsr, .rts] then 2
  else if d.mnemonic ∈ [.pha, .pla] then 1
  else if d.mnemonic = .jmp ∨ d.mode ∈ [.imp, .imm, .rel] then 0
  else if d.mnemonic ∈ [.inc, .dec, .asl, .lsr, .rol, .ror] then 2
  else 1

/-! ### Who writes what (10_state.md rules R23, R25 and R29) -/

/-- The mnemonics that write C. -/
def carryWriters : List Mnemonic := [.adc, .sbc, .cmp, .cpx, .cpy, .asl, .lsr, .rol, .ror, .clc, .sec]

/-- The mnemonics that leave Z and N alone. -/
def znKeepers : List Mnemonic :=
  [.sta, .stx, .sty, .txs, .pha, .jmp, .jsr, .rts, .bpl, .bmi, .bcc, .bcs, .bne, .beq, .clc, .sec, .nop, .brk]

/-- The mnemonics that write SP. -/
def spWriters : List Mnemonic := [.txs, .pha, .pla, .jsr, .rts]

/-- The mnemonics that write memory. -/
def memWriters : List Mnemonic := [.sta, .stx, .sty, .pha, .jsr, .inc, .dec, .asl, .lsr, .rol, .ror]

/-- The mnemonics that change PC in their action (10_state.md rule R28). -/
def pcWriters : List Mnemonic := [.jmp, .jsr, .rts, .bpl, .bmi, .bcc, .bcs, .bne, .beq]

/-! ### The invariant -/

/-- Each bus write into the output range is followed at once by its one pixel event, and no other pixel event stands in
the trace (20_memory.md rule R44). -/
def pixelsFollowWrites (cfg : Config) (tr : List Event) : Prop :=
  tr = (tr.filter Event.isBus).flatMap (fun e => match e with
    | .read a => [.read a]
    | .write a v => writeEvents cfg a v
    | .pixel x y c => [.pixel x y c])

/-- The invariant every step keeps: the configuration is well-formed, memory is in canonical form, the fault record is
set exactly in FAULTED and names an opcode with no entry and the PC where the machine stopped, one draw was counted for
each read of RANDOM_ADDR, and the pixel events are those of the writes. -/
structure Inv (s : State) : Prop where
  config : s.cfg.wf = true
  memory : Memory.wf s.mem = true
  record : s.fault.isSome = true ↔ s.runState = .faulted
  faultOf : ∀ r, s.fault = some r → r.pc = s.pc ∧ lookup s.cfg.table r.opcode = none
  draws : s.draws = drawsIn s.cfg s.trace
  pixels : pixelsFollowWrites s.cfg s.trace

/-! ### Two machines that differ in the stored bytes of the device cells -/

/-- The states agree in everything but the bytes stored at RANDOM_ADDR and INPUT_ADDR, which no core read returns
(20_memory.md rule R46). -/
def SameButDeviceBytes (s t : State) : Prop :=
  { s with mem := [] } = { t with mem := [] } ∧
    ∀ a, a ≠ s.cfg.randomAddr → a ≠ s.cfg.inputAddr → s.peek a = t.peek a

/-- No slot of the stack window is a device cell (the premise of 20_memory.md rule R56). -/
def StackClear (cfg : Config) : Prop :=
  ∀ k : Byte, stackAddr cfg k ≠ cfg.randomAddr ∧ stackAddr cfg k ≠ cfg.inputAddr

/-! ### Runs of stack operations -/

/-- Push every byte of a list in order. -/
def pushAll (vs : List Byte) (s : State) : State := vs.foldl (fun t v => push v t) s

/-- Pull `k` bytes, the first pulled first. -/
def pullAll : Nat → State → List Byte × State
  | 0, s => ([], s)
  | k + 1, s =>
    let r := pull s
    let rs := pullAll k r.2
    (r.1 :: rs.1, rs.2)

/-- Execute JSR to each target in turn, each with its own return address in PC when its action starts. -/
def callAll : List (Addr × Byte × Byte) → State → Host.Outcome State Fault Refusal
  | [], s => .next s
  | (ret, lo, hi) :: rest, s =>
    match exec (.jsr lo hi) (s.setPc ret) with
    | .next t => callAll rest t
    | .fault r => .fault r
    | .refused r => .refused r

/-- Execute RTS `k` times, the PC before each being of no account to it. -/
def returnAll : Nat → State → Host.Outcome State Fault Refusal
  | 0, s => .next s
  | k + 1, s =>
    match exec .rts s with
    | .next t => returnAll k t
    | .fault r => .fault r
    | .refused r => .refused r

/-! ### The opcode bytes with no entry (30_encoding.md rule R73) -/

/-- The 28 official NMOS 6502 opcodes this subset does not admit. -/
def refusedOfficial : List Byte :=
  [0x08, 0x28, 0x40, 0x50, 0x70, 0x58, 0x78, 0xB8, 0xD8, 0xF8, 0x6C, 0x96, 0xB6, 0x1D, 0x3D, 0x5D, 0x7D, 0x9D, 0xBD,
   0xDD, 0xFD, 0xBC, 0x1E, 0x3E, 0x5E, 0x7E, 0xDE, 0xFE]

/-- The 105 undocumented ones. -/
def refusedUndocumented : List Byte :=
  [0x02, 0x03, 0x04, 0x07, 0x0B, 0x0C, 0x0F, 0x12, 0x13, 0x14, 0x17, 0x1A, 0x1B, 0x1C, 0x1F, 0x22, 0x23, 0x27, 0x2B,
   0x2F, 0x32, 0x33, 0x34, 0x37, 0x3A, 0x3B, 0x3C, 0x3F, 0x42, 0x43, 0x44, 0x47, 0x4B, 0x4F] ++
  [0x52, 0x53, 0x54, 0x57, 0x5A, 0x5B, 0x5C, 0x5F, 0x62, 0x63, 0x64, 0x67, 0x6B, 0x6F, 0x72, 0x73, 0x74, 0x77, 0x7A,
   0x7B, 0x7C, 0x7F, 0x80, 0x82, 0x83, 0x87, 0x89, 0x8B, 0x8F, 0x92, 0x93, 0x97, 0x9B, 0x9C, 0x9E, 0x9F] ++
  [0xA3, 0xA7, 0xAB, 0xAF, 0xB2, 0xB3, 0xB7, 0xBB, 0xBF, 0xC2, 0xC3, 0xC7, 0xCB, 0xCF, 0xD2, 0xD3, 0xD4, 0xD7, 0xDA,
   0xDB, 0xDC, 0xDF, 0xE2, 0xE3, 0xE7, 0xEB, 0xEF, 0xF2, 0xF3, 0xF4, 0xF7, 0xFA, 0xFB, 0xFC, 0xFF]

end Sys2Proof.Machine
end

