-- ==== Sys2Proof/Certificates/Slice0/Obligations.lean ====
section
/-! DEFINITION. The statements about the machine, each a numbered rule of the spec or a consequence of several. -/

open Sys2Proof Sys2Proof.Machine

/-! ### Decoding and encoding -/

/-- 30_encoding.md R67, R71: words written out from the encodings of the spec decode to what they stand for. The opcode
values are the spec's own, UNVERIFIED by its source (log entry 2). -/
def Obligations.WordsOfTheSpecDecode : Prop :=
  decode defaultTable [0xA9, 0x05] = .ok (.ldaImm 0x05, []) ∧
  decode defaultTable [0x8D, 0x00, 0x02] = .ok (.staAbs 0x00 0x02, []) ∧
  decode defaultTable [0x91, 0x10, 0xEA] = .ok (.staIndy 0x10, [0xEA]) ∧
  decode defaultTable [0xBA] = .ok (.tsx, []) ∧
  decode defaultTable [0x69, 0x50] = .ok (.adcImm 0x50, []) ∧
  decode defaultTable [0xB5, 0xF0] = .ok (.ldaZpx 0xF0, []) ∧
  decode defaultTable [0xA1, 0xF8] = .ok (.ldaIndx 0xF8, []) ∧
  decode defaultTable [0xBE, 0x00, 0x03] = .ok (.ldxAbsy 0x00 0x03, []) ∧
  decode defaultTable [0xE6, 0x10] = .ok (.incZp 0x10, []) ∧
  decode defaultTable [0x0A] = .ok (.aslAcc, []) ∧
  decode defaultTable [0x20, 0x10, 0x06] = .ok (.jsr 0x10 0x06, []) ∧
  decode defaultTable [0xD0, 0xFA] = .ok (.bne 0xFA, []) ∧
  decode defaultTable [0x00] = .ok (.brk, []) ∧
  decode defaultTable [0x02] = .error (.unknownOpcode 0x02)

/-- 30_encoding.md R71, R72, R73: under the default table the bytes with no entry are exactly the 28 official and the 105
undocumented ones listed, and every byte list that starts with one is refused by name. The opcode values are the
spec's own, UNVERIFIED by its source (log entry 2). -/
def Obligations.ReservedOpcodesAreUnknown : Prop :=
  refusedOfficial.length = 28 ∧ refusedUndocumented.length = 105 ∧ defaultTable.length = 123 ∧
  (∀ op : Byte, lookup defaultTable op = none ↔ op ∈ refusedOfficial ++ refusedUndocumented) ∧
  ∀ op ∈ refusedOfficial ++ refusedUndocumented, ∀ bs : List Byte,
    decode defaultTable (op :: bs) = .error (.unknownOpcode op)

/-- 30_encoding.md R67 to R70: under any table a model may use, the bytes of any instruction the table has an entry for
decode to it, whatever follows, and are as many as its mode says. -/
def Obligations.DecodeOfEncodeUnderAnyTable : Prop :=
  ∀ (t : OpcodeTable) (i : Instr), OpcodeTable.wf t = true → i.wf t = true →
    ∃ bs, encodeIn t i = some bs ∧ bs.length = i.length ∧ ∀ rest, decode t (bs ++ rest) = .ok (i, rest)

/-- 30_encoding.md R67, R69, R75, the other direction: bytes that decode to an instruction are an opcode byte the table maps
to its descriptor, then its operand bytes, then the rest. -/
def Obligations.DecodedBytesAreTheEncoding : Prop :=
  ∀ (t : OpcodeTable) (bs rest : List Byte) (i : Instr), decode t bs = .ok (i, rest) →
    ∃ op, bs = op :: (i.operands ++ rest) ∧ lookup t op = some i.desc

/-- 30_encoding.md R69, R70: under a table a model may use, three bytes always decode to an instruction or are refused as an
unknown opcode; there is no third case. -/
def Obligations.DecodeIsTotal : Prop :=
  ∀ (t : OpcodeTable) (op b0 b1 : Byte) (bs : List Byte), OpcodeTable.wf t = true →
    (∃ i rest, decode t (op :: b0 :: b1 :: bs) = .ok (i, rest)) ∨
    (lookup t op = none ∧ decode t (op :: b0 :: b1 :: bs) = .error (.unknownOpcode op))

/-! ### Configuration and reset -/

/-- 00_scope.md R10, R11, 30_encoding.md R70: the check of a configuration says what the spec says. Of the opcode table it
asks that every (mnemonic, mode) pair is one of rule R71's, which are those of the default table's rows, and, the model's
choice of how a partial function is listed (log entry 11), that the opcodes rise; so each opcode has at most one row. -/
def Obligations.ConfigCheckSaysTheRules : Prop :=
  (∀ c : Config, c.wf = true ↔
    (c.randomAddr ≠ c.inputAddr ∧
      (∀ a, a = c.randomAddr ∨ a = c.inputAddr →
        a.toNat < c.outBase.toNat ∨ c.outBase.toNat + c.outSize ≤ a.toNat) ∧
      c.outBase.toNat + c.outSize ≤ 65536 ∧ c.outWidth ∣ c.outSize ∧
      1 ≤ c.outSize ∧ 1 ≤ c.outWidth ∧ 1 ≤ c.paletteSize ∧
      (∀ r ∈ c.table, ∃ q ∈ defaultTable, q.desc = r.desc) ∧
      c.table.Pairwise (fun r q => r.opcode.toNat < q.opcode.toNat))) ∧
  (∀ c : Config, c.wf = true → ∀ r ∈ c.table, ∀ q ∈ c.table, r.opcode = q.opcode → r = q) ∧
  Config.default.wf = true

/-- 10_state.md R38: reset puts every field at the parameter the rule names, every memory byte at 0x00, the run state at
RUNNING and the fault record at unset. -/
def Obligations.ResetLeavesTheResetValues : Prop :=
  ∀ c : Config, let s := State.resetWith c
    (∀ a, s.peek a = 0x00) ∧ s.pc = c.programOrigin ∧ s.sp = c.spReset ∧ s.a = c.aReset ∧ s.x = c.xReset ∧
    s.y = c.yReset ∧ s.c = c.cReset ∧ s.z = c.zReset ∧ s.n = c.nReset ∧ s.runState = .running ∧ s.fault = none ∧
    s.input = c.inputSentinel ∧ s.cfg = c

/-- The machine the host starts from, the model's choice among the parameters (00_scope.md R10; log entries 2 to 7): every
default of R10's table by its value, the registers, flags and INPUT at theirs, and the two fields of the model's own
empty; so the first step executes the BRK that memory of zeros holds at 0x0600 (log entry 14). -/
def Obligations.ResetUnderTheDefaults : Prop :=
  State.reset.cfg = {
    table := defaultTable, programOrigin := 0x0600, stackBase := 0x0100, spReset := 0xFF, aReset := 0x00,
    xReset := 0x00, yReset := 0x00, cReset := false, zReset := false, nReset := false, randomAddr := 0x00FE,
    inputAddr := 0x00FF, inputSentinel := 0x00, outBase := 0x0200, outSize := 1024, outWidth := 32,
    paletteSize := 16, zpPtrWrap := true } ∧
  State.reset = {
    cfg := State.reset.cfg, a := 0x00, x := 0x00, y := 0x00, sp := 0xFF, pc := 0x0600, c := false, z := false,
    n := false, mem := [], runState := .running, fault := none, input := 0x00, draws := 0, trace := [] } ∧
  step State.reset = .next { State.reset with pc := 0x0601, runState := .halted, trace := [.read 0x0600] }

/-! ### Memory and the bus -/

/-- 20_memory.md R39 and the model's canonical form (log entry 9): two canonical memories that read the same everywhere are
the same data. -/
def Obligations.CanonicalMemoriesThatReadAlikeAreEqual : Prop :=
  ∀ m m' : Memory, Memory.wf m = true → Memory.wf m' = true →
    (∀ a : Addr, Memory.read m a.toNat = Memory.read m' a.toNat) → m = m'

/-- 20_memory.md R40, R42, R43, R45: a core read draws at RANDOM_ADDR, returns INPUT at INPUT_ADDR and the stored byte
elsewhere, is one bus event, and changes no memory; two reads of RANDOM_ADDR are two draws. For every state, and where
the two cells coincide (a configuration rule R11 refuses) the order of rule R40 decides. -/
def Obligations.CoreReadFollowsTheMemoryMap : Prop :=
  ∀ (a : Addr) (s : State),
    (busRead a s).1 = (if a = s.cfg.randomAddr then Config.randomByte s.draws
      else if a = s.cfg.inputAddr then s.input else s.peek a) ∧
    (busRead a s).2 = { s with
      draws := if a = s.cfg.randomAddr then s.draws + 1 else s.draws, trace := s.trace ++ [.read a] } ∧
    (a = s.cfg.randomAddr → (busRead a (busRead a s).2).1 = Config.randomByte (s.draws + 1))

/-- 20_memory.md R41, R44: a core write stores the byte at every address and nowhere else, and a write into the output range
then emits exactly one event with the column, row and colour of the rule; a read of the output range gives the byte. -/
def Obligations.CoreWriteStoresAndEmits : Prop :=
  ∀ (a : Addr) (v : Byte) (s : State), let t := busWrite a v s
    StoresOnly a v s t ∧ t = { s with mem := t.mem, trace := t.trace } ∧
    t.trace = s.trace ++ .write a v ::
      (if s.cfg.outBase.toNat ≤ a.toNat ∧ a.toNat < s.cfg.outBase.toNat + s.cfg.outSize then
        [.pixel ((a.toNat - s.cfg.outBase.toNat) % s.cfg.outWidth) ((a.toNat - s.cfg.outBase.toNat) / s.cfg.outWidth)
          (v.toNat % s.cfg.paletteSize)]
      else []) ∧
    (s.cfg.wf = true → s.cfg.outBase.toNat ≤ a.toNat → a.toNat < s.cfg.outBase.toNat + s.cfg.outSize →
      (busRead a t).1 = v)

/-- 20_memory.md R46: a write to a device cell is stored, where inspection shows it, but the next core read of the cell
returns the device value. -/
def Obligations.WrittenDeviceCellsReadTheDevice : Prop :=
  ∀ (v : Byte) (s : State),
    inspectMem (busWrite s.cfg.randomAddr v s) s.cfg.randomAddr = v ∧
    inspectMem (busWrite s.cfg.inputAddr v s) s.cfg.inputAddr = v ∧
    (busRead s.cfg.randomAddr (busWrite s.cfg.randomAddr v s)).1 = Config.randomByte s.draws ∧
    (s.cfg.randomAddr ≠ s.cfg.inputAddr → (busRead s.cfg.inputAddr (busWrite s.cfg.inputAddr v s)).1 = s.input)

/-- 20_memory.md R46, as isolation: the bytes stored at the two device cells never reach anything else. Two machines that
differ in them alone still do so after a step. -/
def Obligations.DeviceCellBytesNeverLeak : Prop :=
  ∀ s t s' : State, SameButDeviceBytes s t → step s = .next s' →
    ∃ t', step t = .next t' ∧ SameButDeviceBytes s' t'

/-- 20_memory.md R49, 10_state.md R27: Fetch returns what a core read of PC returns and advances PC by one, from 0xFFFF to
0x0000. -/
def Obligations.FetchReadsAtPcAndAdvances : Prop :=
  ∀ s : State, (fetch s).1 = coreByte s.pc s ∧ (fetch s).2.pc.toNat = (s.pc.toNat + 1) % 65536 ∧
    (fetch s).2 = { s with
      pc := s.pc + 1, draws := s.draws + drawsIn s.cfg [.read s.pc], trace := s.trace ++ [.read s.pc] }

/-! ### Register writes -/

/-- 10_state.md R19: the register write stores the value, sets Z and N from it and leaves C and everything else alone; and
whenever an instruction changes A, X or Y, Z and N afterwards are those of the register's new value. -/
def Obligations.EveryRegisterWriteSetsZeroAndNegative : Prop :=
  (∀ (r : Reg) (v : Byte) (s : State), let t := writeReg r v s
    t.reg r = v ∧ (∀ q, q ≠ r → t.reg q = s.reg q) ∧ t.z = decide (v = 0) ∧ t.n = v.getLsbD 7 ∧
    t = { s with a := t.a, x := t.x, y := t.y, z := t.z, n := t.n }) ∧
  ∀ (i : Instr) (s t : State) (r : Reg), exec i s = .next t → t.reg r ≠ s.reg r → FlagsOf (t.reg r) t

/-! ### The stack and subroutines -/

/-- 20_memory.md R52 to R55: the slot of an SP value; Push decrements SP modulo 256, then writes through the bus; Pull reads
through the bus, then increments SP modulo 256; nothing else changes and neither faults. -/
def Obligations.PushAndPullMoveOneByte : Prop :=
  ∀ (v : Byte) (s : State), let t := push v s
    (stackAddr s.cfg s.sp).toNat = (s.cfg.stackBase.toNat + s.sp.toNat) % 65536 ∧
    t.sp.toNat = (s.sp.toNat + 255) % 256 ∧ StoresOnly (stackAddr s.cfg t.sp) v s t ∧
    t = { s with sp := t.sp, mem := t.mem, trace := s.trace ++ writeEvents s.cfg (stackAddr s.cfg t.sp) v } ∧
    (pull s).1 = coreByte (stackAddr s.cfg s.sp) s ∧ (pull s).2.sp.toNat = (s.sp.toNat + 1) % 256 ∧
    (pull s).2 = (s.note [.read (stackAddr s.cfg s.sp)]).setSp (pull s).2.sp

/-- 20_memory.md R56, the stack law: n <= 256 pushes, then n pulls, give the bytes back in reverse and restore SP, if no slot
of the window is a device cell. -/
def Obligations.StackLaw : Prop :=
  ∀ (s : State) (vs : List Byte), StackClear s.cfg → vs.length ≤ 256 →
    (pullAll vs.length (pushAll vs s)).1 = vs.reverse ∧ (pullAll vs.length (pushAll vs s)).2.sp = s.sp

/-- 20_memory.md R57, R58: up to 128 nested calls followed by as many returns restore PC to the return address of the
outermost call, and SP, the registers and the flags, if no slot of the window is a device cell. -/
def Obligations.NestedCallsReturnToTheOutermost : Prop :=
  ∀ (s : State) (ret : Addr) (lo hi : Byte) (calls : List (Addr × Byte × Byte)), StackClear s.cfg →
    calls.length + 1 ≤ 128 →
    ∃ u t, callAll ((ret, lo, hi) :: calls) s = .next u ∧ returnAll (calls.length + 1) u = .next t ∧
      t.pc = ret ∧ t.sp = s.sp ∧ t.a = s.a ∧ t.x = s.x ∧ t.y = s.y ∧ KeepsFlags s t

/-! ### The host between steps -/

/-- 20_memory.md R59: load copies an image to consecutive addresses modulo 65536, later bytes over earlier ones, and leaves
every other byte, every register, flag, PC, SP and the trace alone. -/
def Obligations.LoadInstallsTheImage : Prop :=
  ∀ (s : State) (bytes : List Byte) (origin : Addr), let t := hostLoad bytes origin s
    (∀ k (h : k < bytes.length),
      (∀ j, k < j → j < bytes.length → origin + BitVec.ofNat 16 j ≠ origin + BitVec.ofNat 16 k) →
      t.peek (origin + BitVec.ofNat 16 k) = bytes[k]) ∧
    (∀ a : Addr, (∀ k, k < bytes.length → a ≠ origin + BitVec.ofNat 16 k) → t.peek a = s.peek a) ∧
    t = { s with mem := t.mem }

/-- 10_state.md R33, 60_exceptions.md R160: setting INPUT changes INPUT alone; inspection shows the raw byte, and the fault
record in FAULTED only. -/
def Obligations.HostInputAndInspection : Prop :=
  ∀ (s : State) (v : Byte), hostInput v s = { s with input := v } ∧ (∀ a, inspectMem s a = Memory.read s.mem a.toNat) ∧
    (s.runState ≠ .faulted → inspectFault s = none) ∧ (s.runState = .faulted → inspectFault s = s.fault)

/-- 40_step_and_addressing.md R80: a run that has left RUNNING is over, and more fuel gives the same state. -/
def Obligations.RunEndsWhereRunningEnds : Prop :=
  ∀ (k m : Nat) (s t : State), run k s = .next t → t.runState ≠ .running → run (k + m) s = .next t

/-! ### The step -/

/-- 40_step_and_addressing.md R78, R97: a step from RUNNING whose fetched bytes decode to `i` is `exec i` in the state after
exactly those bytes: the reads of them in the trace, PC at the next instruction. The second clause says it of the bytes
stored in memory, where none of them is a device cell. -/
def Obligations.StepRunsTheDecodedInstruction : Prop :=
  ∀ (s : State) (i : Instr), s.runState = .running → s.cfg.wf = true →
    (decode s.cfg.table (fetchBytes i.length s).1 = .ok (i, []) →
      step s = exec i ((s.note (fetchEvents i.length s.pc)).setPc (s.pc + BitVec.ofNat 16 i.length))) ∧
    (∀ rest, decode s.cfg.table [s.peek s.pc, s.peek (s.pc + 1), s.peek (s.pc + 2)] = .ok (i, rest) →
      (∀ k, k < i.length → s.pc + BitVec.ofNat 16 k ≠ s.cfg.randomAddr ∧ s.pc + BitVec.ofNat 16 k ≠ s.cfg.inputAddr) →
      step s = exec i { s with
        pc := s.pc + BitVec.ofNat 16 i.length, trace := s.trace ++ fetchEvents i.length s.pc })

/-- 60_exceptions.md R150, R152: an opcode with no entry takes the exception: FAULTED, the record holds the opcode and PC
after the fetch, nothing else differs from the state after the one opcode fetch, and the host is told. -/
def Obligations.UnknownOpcodeEntersFaulted : Prop :=
  ∀ s : State, s.runState = .running → s.cfg.wf = true → lookup s.cfg.table (coreByte s.pc s) = none →
    ∃ t, step s = .next t ∧
      t = { s with
        pc := s.pc + 1, runState := .faulted, fault := some ⟨coreByte s.pc s, s.pc + 1⟩,
        draws := s.draws + drawsIn s.cfg [.read s.pc], trace := s.trace ++ [.read s.pc] } ∧
      stepReturn t = some (.faulted (coreByte s.pc s) (s.pc + 1))

/-- 40_step_and_addressing.md R79: a step in HALTED or FAULTED changes nothing. -/
def Obligations.EndStatesAreFinal : Prop :=
  ∀ s : State, s.runState = .halted ∨ s.runState = .faulted → step s = .next s

/-- 10_state.md R37, 60_exceptions.md R151: a step is total. Under a well-formed configuration it always answers a next
state, and the only stop is the refusal of a configuration rule R11 of 00_scope.md or R70 of 30_encoding.md rejects
(log entry 10). -/
def Obligations.StepAlwaysAnswers : Prop :=
  ∀ s : State, (s.cfg.wf = true → ∃ t, step s = .next t) ∧
    (s.cfg.wf = false → s.runState = .running → step s = .refused .illFormedConfig) ∧ ∀ f, step s ≠ .fault f

/-- 40_step_and_addressing.md R97, 30_encoding.md R68, 10_state.md R28: after a step from RUNNING that does not fault, PC is
the address of the opcode plus the length of its mode, unless the mnemonic is a jump, call, return or branch; a not
taken branch also falls through. -/
def Obligations.PcAdvancesByTheLength : Prop :=
  ∀ (s t : State) (d : Descriptor), s.runState = .running → s.cfg.wf = true →
    lookup s.cfg.table (coreByte s.pc s) = some d → step s = .next t →
    (d.mnemonic ∉ pcWriters → t.pc = s.pc + BitVec.ofNat 16 d.mode.length) ∧
    ((d.mnemonic = .bne ∧ s.z = true ∨ d.mnemonic = .beq ∧ s.z = false ∨ d.mnemonic = .bcc ∧ s.c = true ∨
      d.mnemonic = .bcs ∧ s.c = false ∨ d.mnemonic = .bpl ∧ s.n = true ∨ d.mnemonic = .bmi ∧ s.n = false) →
      t.pc = s.pc + BitVec.ofNat 16 d.mode.length)

/-- 40_step_and_addressing.md R82, D20: a step only appends to the trace; the number of its bus accesses is 1 + operand bytes
+ 2 if indirect + the data accesses of the mnemonic, 1 for an unknown opcode, so between 1 and 5. -/
def Obligations.BusAccessesOfAStep : Prop :=
  ∀ s t : State, s.runState = .running → s.cfg.wf = true → step s = .next t →
    ∃ evs, t.trace = s.trace ++ evs ∧ 1 ≤ busCount evs ∧ busCount evs ≤ 5 ∧
      (lookup s.cfg.table (coreByte s.pc s) = none → busCount evs = 1) ∧
      ∀ d, lookup s.cfg.table (coreByte s.pc s) = some d →
        busCount evs = 1 + d.mode.operandBytes + pointerReads d.mode + dataAccesses d

/-- 10_state.md R33, R35: no step changes the parameters or INPUT. -/
def Obligations.StepKeepsConfigurationAndInput : Prop :=
  ∀ s t : State, step s = .next t → t.cfg = s.cfg ∧ t.input = s.input

/-- 10_state.md R23, R25: the writers of the flags are closed. Only the listed mnemonics change C, and the listed keepers
leave Z and N alone. -/
def Obligations.FlagWritersAreClosed : Prop :=
  ∀ (i : Instr) (s t : State), exec i s = .next t →
    (i.desc.mnemonic ∉ carryWriters → t.c = s.c) ∧ (i.desc.mnemonic ∈ znKeepers → t.z = s.z ∧ t.n = s.n)

/-- 10_state.md R29: only TXS and the stack operations change SP. -/
def Obligations.StackPointerWritersAreClosed : Prop :=
  ∀ (i : Instr) (s t : State), exec i s = .next t → i.desc.mnemonic ∉ spWriters → t.sp = s.sp

/-- 10_state.md R30, 42_alu.md R131: only stores, pushes, JSR and the memory forms of the read-modify-writes change a byte of
memory. -/
def Obligations.MemoryWritersAreClosed : Prop :=
  ∀ (i : Instr) (s t : State), exec i s = .next t →
    (i.desc.mnemonic ∉ memWriters ∨ (i.desc.mode = .imp ∧ i.desc.mnemonic ≠ .pha)) → ∀ a, t.peek a = s.peek a

/-- 60_exceptions.md R154, R157: an instruction that passed decode never faults, and BRK alone halts. -/
def Obligations.OnlyBrkHalts : Prop :=
  ∀ (i : Instr) (s t : State), exec i s = .next t →
    t.fault = s.fault ∧ (i = .brk → t.runState = .halted) ∧ (i ≠ .brk → t.runState = s.runState)

/-! ### The invariant -/

/-- The invariant holds right after reset under the default parameters, and under any well-formed ones. -/
def Obligations.InvariantHoldsAtReset : Prop :=
  Inv State.reset ∧ ∀ c : Config, c.wf = true → Inv (State.resetWith c)

/-- Every step keeps the invariant: canonical memory, a fault record exactly in FAULTED naming an opcode with no entry, one
draw per read of RANDOM_ADDR, one pixel event per write into the output range (10_state.md R32, 20_memory.md R42, R44,
60_exceptions.md R150). -/
def Obligations.StepKeepsTheInvariant : Prop :=
  ∀ s t : State, Inv s → step s = .next t → Inv t

/-- The host's acts between steps keep the invariant too (20_memory.md R59, 60_exceptions.md R161). -/
def Obligations.HostActsKeepTheInvariant : Prop :=
  ∀ (acts : List HostAct) (s : State), Inv s → Inv (applyActs acts s)

/-! ### The microengine -/

/-- 40_step_and_addressing.md R89 to R95: the effective addresses of the six addressing forms, as numbers; the indirect
modes read their pointer's low byte, then its high byte. -/
def Obligations.EffectiveAddressesOfTheModes : Prop :=
  ∀ (s : State) (b lo hi : Byte),
    (effAddr (.zp b) s).1.toNat = b.toNat ∧
    (effAddr (.zpx b) s).1.toNat = (b.toNat + s.x.toNat) % 256 ∧
    (effAddr (.abs lo hi) s).1.toNat = lo.toNat + 256 * hi.toNat ∧
    (effAddr (.absy lo hi) s).1.toNat = (lo.toNat + 256 * hi.toNat + s.y.toNat) % 65536 ∧
    (∀ p : Byte, p.toNat = (b.toNat + s.x.toNat) % 256 →
      (effAddr (.indx b) s).1.toNat = (coreByte (zext16 p) s).toNat +
        256 * (coreByte (ptrHi s.cfg p) (s.note [.read (zext16 p)])).toNat) ∧
    (effAddr (.indy b) s).1.toNat = ((coreByte (zext16 b) s).toNat +
      256 * (coreByte (ptrHi s.cfg b) (s.note [.read (zext16 b)])).toNat + s.y.toNat) % 65536 ∧
    ∀ f : AddrForm, (effAddr f s).2 = s.note (f.pointerEvents s)

/-- 40_step_and_addressing.md R91: the pointer's high byte stands at (p + 1) mod 256 with ZP_PTR_WRAP, else at p + 1; the two
differ only at p = 0xFF. -/
def Obligations.PointerHighByteAddress : Prop :=
  ∀ (c : Config) (p : Byte),
    (c.zpPtrWrap = true → (ptrHi c p).toNat = (p.toNat + 1) % 256) ∧
    (c.zpPtrWrap = false → (ptrHi c p).toNat = p.toNat + 1) ∧
    ((ptrHi { c with zpPtrWrap := true } p ≠ ptrHi { c with zpPtrWrap := false } p) ↔ p = 0xFF)

/-! ### Loads, stores, transfers and stack moves -/

/-- 41_load_store_transfer.md R99 to R101: LDA, LDX and LDY in every form. -/
def Obligations.LoadsTakeTheOperandValue : Prop :=
  ∀ (s : State) (b lo hi : Byte),
    LoadsReg 0xA9 .a (.ldaImm b) (.imm b) s ∧ LoadsReg 0xA5 .a (.ldaZp b) (.mem (.zp b)) s ∧
    LoadsReg 0xB5 .a (.ldaZpx b) (.mem (.zpx b)) s ∧ LoadsReg 0xA1 .a (.ldaIndx b) (.mem (.indx b)) s ∧
    LoadsReg 0xB1 .a (.ldaIndy b) (.mem (.indy b)) s ∧ LoadsReg 0xAD .a (.ldaAbs lo hi) (.mem (.abs lo hi)) s ∧
    LoadsReg 0xB9 .a (.ldaAbsy lo hi) (.mem (.absy lo hi)) s ∧
    LoadsReg 0xA2 .x (.ldxImm b) (.imm b) s ∧ LoadsReg 0xA6 .x (.ldxZp b) (.mem (.zp b)) s ∧
    LoadsReg 0xAE .x (.ldxAbs lo hi) (.mem (.abs lo hi)) s ∧ LoadsReg 0xBE .x (.ldxAbsy lo hi) (.mem (.absy lo hi)) s ∧
    LoadsReg 0xA0 .y (.ldyImm b) (.imm b) s ∧ LoadsReg 0xA4 .y (.ldyZp b) (.mem (.zp b)) s ∧
    LoadsReg 0xB4 .y (.ldyZpx b) (.mem (.zpx b)) s ∧ LoadsReg 0xAC .y (.ldyAbs lo hi) (.mem (.abs lo hi)) s

/-- 41_load_store_transfer.md R102 to R104: STA, STX and STY in every form. -/
def Obligations.StoresWriteOneByte : Prop :=
  ∀ (s : State) (b lo hi : Byte),
    StoresReg 0x85 .a (.staZp b) (.zp b) s ∧ StoresReg 0x95 .a (.staZpx b) (.zpx b) s ∧
    StoresReg 0x81 .a (.staIndx b) (.indx b) s ∧ StoresReg 0x91 .a (.staIndy b) (.indy b) s ∧
    StoresReg 0x8D .a (.staAbs lo hi) (.abs lo hi) s ∧ StoresReg 0x99 .a (.staAbsy lo hi) (.absy lo hi) s ∧
    StoresReg 0x86 .x (.stxZp b) (.zp b) s ∧ StoresReg 0x8E .x (.stxAbs lo hi) (.abs lo hi) s ∧
    StoresReg 0x84 .y (.styZp b) (.zp b) s ∧ StoresReg 0x94 .y (.styZpx b) (.zpx b) s ∧
    StoresReg 0x8C .y (.styAbs lo hi) (.abs lo hi) s

/-- 41_load_store_transfer.md R105 to R109: the transfers into A, X and Y set Z and N from the value moved. -/
def Obligations.TransfersMoveAndSetFlags : Prop :=
  ∀ s : State,
    (Instr.tax.opcode = 0xAA ∧
      exec .tax s = .next { s with x := s.a, z := decide (s.a = 0), n := s.a.getLsbD 7 }) ∧
    (Instr.tay.opcode = 0xA8 ∧
      exec .tay s = .next { s with y := s.a, z := decide (s.a = 0), n := s.a.getLsbD 7 }) ∧
    (Instr.txa.opcode = 0x8A ∧
      exec .txa s = .next { s with a := s.x, z := decide (s.x = 0), n := s.x.getLsbD 7 }) ∧
    (Instr.tya.opcode = 0x98 ∧
      exec .tya s = .next { s with a := s.y, z := decide (s.y = 0), n := s.y.getLsbD 7 }) ∧
    (Instr.tsx.opcode = 0xBA ∧
      exec .tsx s = .next { s with x := s.sp, z := decide (s.sp = 0), n := s.sp.getLsbD 7 })

/-- 41_load_store_transfer.md R110: TXS writes SP and no flag. -/
def Obligations.TxsWritesNoFlag : Prop :=
  ∀ s : State, Instr.txs.opcode = 0x9A ∧ exec .txs s = .next { s with sp := s.x }

/-- 41_load_store_transfer.md R111, 20_memory.md R53: PHA decrements SP modulo 256, then stores A at the new slot. -/
def Obligations.PhaPushesA : Prop :=
  ∀ s : State, Instr.pha.opcode = 0x48 ∧ ∃ t, exec .pha s = .next t ∧ t.sp.toNat = (s.sp.toNat + 255) % 256 ∧
    StoresOnly (stackAddr s.cfg t.sp) s.a s t ∧ KeepsFlags s t ∧ t.pc = s.pc ∧ Keeps [] s t ∧
    BusDoes (writeEvents s.cfg (stackAddr s.cfg t.sp) s.a) s t

/-- 41_load_store_transfer.md R112, 20_memory.md R54: PLA reads the slot of SP, then increments SP modulo 256. -/
def Obligations.PlaPullsA : Prop :=
  ∀ s : State, Instr.pla.opcode = 0x68 ∧ ∃ t, exec .pla s = .next t ∧ t.a = coreByte (stackAddr s.cfg s.sp) s ∧
    t.sp.toNat = (s.sp.toNat + 1) % 256 ∧ FlagsOf t.a t ∧ t.c = s.c ∧ t.pc = s.pc ∧ Keeps [.a] s t ∧ KeepsMem s t ∧
    BusDoes [.read (stackAddr s.cfg s.sp)] s t

/-! ### The ALU -/

/-- 42_alu.md R115: ADC in every form. -/
def Obligations.AdcAddsWithCarry : Prop :=
  ∀ (s : State) (b lo hi : Byte),
    AddsWithCarry 0x69 (.adcImm b) (.imm b) s ∧ AddsWithCarry 0x65 (.adcZp b) (.mem (.zp b)) s ∧
    AddsWithCarry 0x75 (.adcZpx b) (.mem (.zpx b)) s ∧ AddsWithCarry 0x61 (.adcIndx b) (.mem (.indx b)) s ∧
    AddsWithCarry 0x71 (.adcIndy b) (.mem (.indy b)) s ∧ AddsWithCarry 0x6D (.adcAbs lo hi) (.mem (.abs lo hi)) s ∧
    AddsWithCarry 0x79 (.adcAbsy lo hi) (.mem (.absy lo hi)) s

/-- 42_alu.md R116: SBC in every form, and that it is ADC of the complemented operand. -/
def Obligations.SbcSubtractsWithBorrow : Prop :=
  ∀ (s : State) (b lo hi : Byte),
    SubtractsWithBorrow 0xE9 (.sbcImm b) (.imm b) s ∧ SubtractsWithBorrow 0xE5 (.sbcZp b) (.mem (.zp b)) s ∧
    SubtractsWithBorrow 0xF5 (.sbcZpx b) (.mem (.zpx b)) s ∧ SubtractsWithBorrow 0xE1 (.sbcIndx b) (.mem (.indx b)) s ∧
    SubtractsWithBorrow 0xF1 (.sbcIndy b) (.mem (.indy b)) s ∧
    SubtractsWithBorrow 0xED (.sbcAbs lo hi) (.mem (.abs lo hi)) s ∧
    SubtractsWithBorrow 0xF9 (.sbcAbsy lo hi) (.mem (.absy lo hi)) s ∧
    exec (.sbcImm b) s = exec (.adcImm (~~~b)) s ∧ ∀ (m : Byte) (c : Bool), subBorrow s.a m c = addCarry s.a (~~~m) c

/-- 42_alu.md R117 to R119: AND, ORA and EOR in every form. -/
def Obligations.LogicCombinesBits : Prop :=
  ∀ (s : State) (b lo hi : Byte),
    CombinesBits (· &&& ·) 0x29 (.andImm b) (.imm b) s ∧ CombinesBits (· &&& ·) 0x25 (.andZp b) (.mem (.zp b)) s ∧
    CombinesBits (· &&& ·) 0x35 (.andZpx b) (.mem (.zpx b)) s ∧
    CombinesBits (· &&& ·) 0x21 (.andIndx b) (.mem (.indx b)) s ∧
    CombinesBits (· &&& ·) 0x31 (.andIndy b) (.mem (.indy b)) s ∧
    CombinesBits (· &&& ·) 0x2D (.andAbs lo hi) (.mem (.abs lo hi)) s ∧
    CombinesBits (· &&& ·) 0x39 (.andAbsy lo hi) (.mem (.absy lo hi)) s ∧
    CombinesBits (· ||| ·) 0x09 (.oraImm b) (.imm b) s ∧ CombinesBits (· ||| ·) 0x05 (.oraZp b) (.mem (.zp b)) s ∧
    CombinesBits (· ||| ·) 0x15 (.oraZpx b) (.mem (.zpx b)) s ∧
    CombinesBits (· ||| ·) 0x01 (.oraIndx b) (.mem (.indx b)) s ∧
    CombinesBits (· ||| ·) 0x11 (.oraIndy b) (.mem (.indy b)) s ∧
    CombinesBits (· ||| ·) 0x0D (.oraAbs lo hi) (.mem (.abs lo hi)) s ∧
    CombinesBits (· ||| ·) 0x19 (.oraAbsy lo hi) (.mem (.absy lo hi)) s ∧
    CombinesBits (· ^^^ ·) 0x49 (.eorImm b) (.imm b) s ∧ CombinesBits (· ^^^ ·) 0x45 (.eorZp b) (.mem (.zp b)) s ∧
    CombinesBits (· ^^^ ·) 0x55 (.eorZpx b) (.mem (.zpx b)) s ∧
    CombinesBits (· ^^^ ·) 0x41 (.eorIndx b) (.mem (.indx b)) s ∧
    CombinesBits (· ^^^ ·) 0x51 (.eorIndy b) (.mem (.indy b)) s ∧
    CombinesBits (· ^^^ ·) 0x4D (.eorAbs lo hi) (.mem (.abs lo hi)) s ∧
    CombinesBits (· ^^^ ·) 0x59 (.eorAbsy lo hi) (.mem (.absy lo hi)) s

/-- 42_alu.md R120 to R123: CMP, CPX and CPY in every form. -/
def Obligations.ComparesSetTheFlags : Prop :=
  ∀ (s : State) (b lo hi : Byte),
    ComparesReg 0xC9 .a (.cmpImm b) (.imm b) s ∧ ComparesReg 0xC5 .a (.cmpZp b) (.mem (.zp b)) s ∧
    ComparesReg 0xD5 .a (.cmpZpx b) (.mem (.zpx b)) s ∧ ComparesReg 0xC1 .a (.cmpIndx b) (.mem (.indx b)) s ∧
    ComparesReg 0xD1 .a (.cmpIndy b) (.mem (.indy b)) s ∧ ComparesReg 0xCD .a (.cmpAbs lo hi) (.mem (.abs lo hi)) s ∧
    ComparesReg 0xD9 .a (.cmpAbsy lo hi) (.mem (.absy lo hi)) s ∧
    ComparesReg 0xE0 .x (.cpxImm b) (.imm b) s ∧ ComparesReg 0xE4 .x (.cpxZp b) (.mem (.zp b)) s ∧
    ComparesReg 0xEC .x (.cpxAbs lo hi) (.mem (.abs lo hi)) s ∧
    ComparesReg 0xC0 .y (.cpyImm b) (.imm b) s ∧ ComparesReg 0xC4 .y (.cpyZp b) (.mem (.zp b)) s ∧
    ComparesReg 0xCC .y (.cpyAbs lo hi) (.mem (.abs lo hi)) s

/-- 42_alu.md R124: BIT in both forms. -/
def Obligations.BitTestsAgainstMemory : Prop :=
  ∀ (s : State) (b lo hi : Byte),
    TestsBits 0x24 (.bitZp b) (.zp b) s ∧ TestsBits 0x2C (.bitAbs lo hi) (.abs lo hi) s

/-- 42_alu.md R125, R126: INC and DEC in every form, one read and one write each. -/
def Obligations.IncDecStepMemory : Prop :=
  ∀ (s : State) (b lo hi : Byte),
    StepsMem (fun m => BitVec.ofNat 8 (m.toNat + 1)) 0xE6 (.incZp b) (.zp b) s ∧
    StepsMem (fun m => BitVec.ofNat 8 (m.toNat + 1)) 0xF6 (.incZpx b) (.zpx b) s ∧
    StepsMem (fun m => BitVec.ofNat 8 (m.toNat + 1)) 0xEE (.incAbs lo hi) (.abs lo hi) s ∧
    StepsMem (fun m => BitVec.ofInt 8 ((m.toNat : Int) - 1)) 0xC6 (.decZp b) (.zp b) s ∧
    StepsMem (fun m => BitVec.ofInt 8 ((m.toNat : Int) - 1)) 0xD6 (.decZpx b) (.zpx b) s ∧
    StepsMem (fun m => BitVec.ofInt 8 ((m.toNat : Int) - 1)) 0xCE (.decAbs lo hi) (.abs lo hi) s

/-- 42_alu.md R127 to R130: INX, INY, DEX and DEY. -/
def Obligations.IndexRegistersStep : Prop :=
  ∀ s : State,
    (Instr.inx.opcode = 0xE8 ∧
      exec .inx s = .next { s with x := s.x + 1, z := decide (s.x + 1 = 0), n := (s.x + 1).getLsbD 7 }) ∧
    (Instr.iny.opcode = 0xC8 ∧
      exec .iny s = .next { s with y := s.y + 1, z := decide (s.y + 1 = 0), n := (s.y + 1).getLsbD 7 }) ∧
    (Instr.dex.opcode = 0xCA ∧
      exec .dex s = .next { s with x := s.x - 1, z := decide (s.x - 1 = 0), n := (s.x - 1).getLsbD 7 }) ∧
    (Instr.dey.opcode = 0x88 ∧
      exec .dey s = .next { s with y := s.y - 1, z := decide (s.y - 1 = 0), n := (s.y - 1).getLsbD 7 })

/-- 42_alu.md R131 to R135, the accumulator forms of ASL, LSR, ROL and ROR, the results as numbers. -/
def Obligations.ShiftsOfTheAccumulator : Prop :=
  ∀ s : State,
    ShiftsAcc (2 * s.a.toNat) (s.a.getLsbD 7) 0x0A .aslAcc s ∧
    ShiftsAcc (s.a.toNat / 2) (s.a.getLsbD 0) 0x4A .lsrAcc s ∧
    ShiftsAcc (2 * s.a.toNat + bitNat s.c) (s.a.getLsbD 7) 0x2A .rolAcc s ∧
    ShiftsAcc (s.a.toNat / 2 + 128 * bitNat s.c) (s.a.getLsbD 0) 0x6A .rorAcc s

/-- 42_alu.md R131 to R135, the memory forms of ASL, LSR, ROL and ROR. -/
def Obligations.ShiftsOfMemory : Prop :=
  ∀ (s : State) (b lo hi : Byte),
    ShiftsMem (fun o _ => 2 * o.toNat) (fun o => o.getLsbD 7) 0x06 (.aslZp b) (.zp b) s ∧
    ShiftsMem (fun o _ => 2 * o.toNat) (fun o => o.getLsbD 7) 0x16 (.aslZpx b) (.zpx b) s ∧
    ShiftsMem (fun o _ => 2 * o.toNat) (fun o => o.getLsbD 7) 0x0E (.aslAbs lo hi) (.abs lo hi) s ∧
    ShiftsMem (fun o _ => o.toNat / 2) (fun o => o.getLsbD 0) 0x46 (.lsrZp b) (.zp b) s ∧
    ShiftsMem (fun o _ => o.toNat / 2) (fun o => o.getLsbD 0) 0x56 (.lsrZpx b) (.zpx b) s ∧
    ShiftsMem (fun o _ => o.toNat / 2) (fun o => o.getLsbD 0) 0x4E (.lsrAbs lo hi) (.abs lo hi) s ∧
    ShiftsMem (fun o c => 2 * o.toNat + bitNat c) (fun o => o.getLsbD 7) 0x26 (.rolZp b) (.zp b) s ∧
    ShiftsMem (fun o c => 2 * o.toNat + bitNat c) (fun o => o.getLsbD 7) 0x36 (.rolZpx b) (.zpx b) s ∧
    ShiftsMem (fun o c => 2 * o.toNat + bitNat c) (fun o => o.getLsbD 7) 0x2E (.rolAbs lo hi) (.abs lo hi) s ∧
    ShiftsMem (fun o c => o.toNat / 2 + 128 * bitNat c) (fun o => o.getLsbD 0) 0x66 (.rorZp b) (.zp b) s ∧
    ShiftsMem (fun o c => o.toNat / 2 + 128 * bitNat c) (fun o => o.getLsbD 0) 0x76 (.rorZpx b) (.zpx b) s ∧
    ShiftsMem (fun o c => o.toNat / 2 + 128 * bitNat c) (fun o => o.getLsbD 0) 0x6E (.rorAbs lo hi) (.abs lo hi) s

/-! ### Control -/

/-- 43_control.md R136: JMP sets PC and does nothing else. -/
def Obligations.JmpSetsPc : Prop :=
  ∀ (s : State) (lo hi : Byte), (Instr.jmp lo hi).opcode = 0x4C ∧
    exec (.jmp lo hi) s = .next { s with pc := BitVec.ofNat 16 (lo.toNat + 256 * hi.toNat) }

/-- 43_control.md R137, 20_memory.md R57: JSR pushes the high, then the low byte of PC, which holds the address of the next
instruction, and jumps. -/
def Obligations.JsrPushesTheReturnAddress : Prop :=
  ∀ (s : State) (lo hi : Byte), (Instr.jsr lo hi).opcode = 0x20 ∧ ∃ t, exec (.jsr lo hi) s = .next t ∧
    t.pc.toNat = lo.toNat + 256 * hi.toNat ∧ t.sp.toNat = (s.sp.toNat + 254) % 256 ∧
    (∀ a, t.peek a =
      if a = stackAddr s.cfg t.sp then BitVec.ofNat 8 s.pc.toNat
      else if a = stackAddr s.cfg (t.sp + 1) then BitVec.ofNat 8 (s.pc.toNat / 256)
      else s.peek a) ∧
    KeepsFlags s t ∧ Keeps [] s t ∧
    BusDoes (writeEvents s.cfg (stackAddr s.cfg (t.sp + 1)) (hi8 s.pc) ++
      writeEvents s.cfg (stackAddr s.cfg t.sp) (lo8 s.pc)) s t

/-- 43_control.md R138, 20_memory.md R58: RTS pulls the low, then the high byte and sets PC to exactly that, whatever the
stack holds. -/
def Obligations.RtsPullsThePc : Prop :=
  ∀ s : State, Instr.rts.opcode = 0x60 ∧ ∃ t, exec .rts s = .next t ∧
    t.pc.toNat = (coreByte (stackAddr s.cfg s.sp) s).toNat +
      256 * (coreByte (stackAddr s.cfg (s.sp + 1)) (s.note [.read (stackAddr s.cfg s.sp)])).toNat ∧
    t.sp.toNat = (s.sp.toNat + 2) % 256 ∧ KeepsFlags s t ∧ Keeps [] s t ∧ KeepsMem s t ∧
    BusDoes [.read (stackAddr s.cfg s.sp), .read (stackAddr s.cfg (s.sp + 1))] s t

/-- 43_control.md R139 to R145, 40_step_and_addressing.md R96: the six branches, taken and not taken. -/
def Obligations.BranchesFollowTheirFlag : Prop :=
  ∀ (s : State) (o : Byte),
    Branches (!s.n) 0x10 (.bpl o) o s ∧ Branches s.n 0x30 (.bmi o) o s ∧ Branches (!s.c) 0x90 (.bcc o) o s ∧
    Branches s.c 0xB0 (.bcs o) o s ∧ Branches (!s.z) 0xD0 (.bne o) o s ∧ Branches s.z 0xF0 (.beq o) o s

/-- 43_control.md R146, R147, R148: CLC and SEC write C alone, NOP does nothing. -/
def Obligations.CarryInstructionsAndNop : Prop :=
  ∀ s : State,
    (Instr.clc.opcode = 0x18 ∧ exec .clc s = .next { s with c := false }) ∧
    (Instr.sec.opcode = 0x38 ∧ exec .sec s = .next { s with c := true }) ∧
    (Instr.nop.opcode = 0xEA ∧ exec .nop s = .next s)

/-- 43_control.md R149: BRK halts. The run state becomes HALTED and nothing else changes; nothing is pushed and no vector is
read. (A claim should not rest on PC after a halt: decision D5.) -/
def Obligations.BrkHalts : Prop :=
  ∀ s : State, Instr.brk.opcode = 0x00 ∧ exec .brk s = .next { s with runState := .halted }

/-! ### The default table, row by row -/

/-- 30_encoding.md R67, R69, R71: under the default table the opcode of every instruction has exactly its descriptor, and its
encoding followed by any bytes decodes to it; so the opcode each instruction's own statement names is the one `step`
runs it for. The opcode values are the spec's own, UNVERIFIED by its source (log entry 2). -/
def Obligations.DefaultTableDecodesEveryInstruction : Prop :=
  ∀ (i : Instr) (rest : List Byte),
    lookup defaultTable i.opcode = some i.desc ∧ decode defaultTable (encode i ++ rest) = .ok (i, rest)

/-! ### The end of a run -/

/-- 70_reset_and_hazards.md R170, 40_step_and_addressing.md R80: a run in which the host acts before each step ends in the first
state that is not RUNNING, whatever acts were still scheduled; and with no acts it is `run`. -/
def Obligations.ScheduledRunEndsWhereRunningEnds : Prop :=
  (∀ (sched more : List (List HostAct)) (s t : State),
    runSchedule sched s = .next t → t.runState ≠ .running → runSchedule (sched ++ more) s = .next t) ∧
  ∀ (k : Nat) (s : State), runSchedule (List.replicate k []) s = run k s
end

