-- ==== Sys2Proof/Laws/Decode.lean ====
section
/-! SUPPORT. What decoding is made of: which pairs build an instruction, that an instruction built from operand bytes has the
descriptor and the operand bytes it was built from, and that a well-formed table holds admitted pairs only. -/

namespace Sys2Proof

/-- A built instruction has the descriptor it was built for. -/
theorem Instr.build_desc {m : Mnemonic} {d : Mode} {b0 b1 : Byte} {i : Instr} (h : Instr.build m d b0 b1 = some i) :
    i.desc = ⟨m, d⟩ := by
  cases m <;> cases d <;> first | (cases h; rfl) | cases h

/-- A pair builds an instruction exactly when 30_encoding.md rule R71 lists it. -/
theorem Instr.build_isSome (m : Mnemonic) (d : Mode) (b0 b1 : Byte) :
    (Instr.build m d b0 b1).isSome = Descriptor.admitted ⟨m, d⟩ := by
  cases m <;> cases d <;> rfl

/-- A built instruction has the operand bytes taken for it. -/
theorem Instr.build_operands {m : Mnemonic} {d : Mode} {b0 b1 : Byte} {bs rest : List Byte} {i : Instr}
    (ht : takeOperands d.operandBytes bs = some (b0, b1, rest)) (h : Instr.build m d b0 b1 = some i) :
    bs = i.operands ++ rest := by
  cases d <;> simp only [Mode.operandBytes] at ht <;>
    (first
      | (cases bs with
          | nil => cases ht
          | cons x xs =>
            first
            | (cases ht; cases m <;> first | (cases h; rfl) | cases h)
            | (cases xs with
                | nil => cases ht
                | cons y ys => cases ht; cases m <;> first | (cases h; rfl) | cases h))
      | (cases ht; cases m <;> first | (cases h; rfl) | cases h))

/-- Exactly the operand bytes of a mode can be taken from a list that has as many. -/
theorem takeOperands_exact (d : Mode) (bs : List Byte) (h : bs.length = d.operandBytes) :
    ∃ b0 b1, takeOperands d.operandBytes bs = some (b0, b1, []) := by
  cases d <;> simp only [Mode.operandBytes] at h ⊢ <;>
    first
    | (obtain ⟨x, y, rfl⟩ := List.length_eq_two.mp h; exact ⟨_, _, rfl⟩)
    | (obtain ⟨x, rfl⟩ := List.length_eq_one_iff.mp h; exact ⟨_, _, rfl⟩)
    | (obtain rfl := List.length_eq_zero_iff.mp h; exact ⟨_, _, rfl⟩)

/-- Every descriptor a well-formed table gives is an admitted pair. -/
theorem lookup_admitted {t : OpcodeTable} {op : Byte} {d : Descriptor} (hw : OpcodeTable.wf t = true)
    (h : lookup t op = some d) : d.admitted = true := by
  simp only [OpcodeTable.wf, Bool.and_eq_true, List.all_eq_true] at hw
  simp only [lookup, Option.map_eq_some_iff] at h
  obtain ⟨r, hr, rfl⟩ := h
  exact hw.2 r (List.mem_of_find?_eq_some hr)

/-- A well-formed configuration has a well-formed table. -/
theorem Config.table_wf {c : Config} (h : c.wf = true) : OpcodeTable.wf c.table = true := by
  simp only [Config.wf, Bool.and_eq_true] at h
  exact h.2

end Sys2Proof
end

