-- ==== Sys2Proof/Laws/Memory.lean ====
section
/-! SUPPORT. Storage: a read after a write gives the value written and every other address reads as before, for any list of
cells; and every write keeps the canonical form. -/

namespace Sys2Proof.Machine

theorem Memory.read_erase (m : Memory) (a b : Nat) :
    Memory.read (Memory.erase m a) b = if b = a then unlistedByte else Memory.read m b := by
  induction m with
  | nil => simp [Memory.erase, Memory.read]
  | cons cell m ih =>
    obtain ⟨k, v⟩ := cell
    simp only [Memory.erase, List.filter_cons] at ih ⊢
    by_cases hk : k = a
    · subst hk
      by_cases hb : b = k
      · simpa [hb] using ih
      · simpa [hb, Memory.read, Ne.symm hb] using ih
    · by_cases hb : b = a
      · subst hb
        simpa [hk, Memory.read] using ih
      · simp only [hb, if_false] at ih
        simp [hk, hb, Memory.read, ih]

theorem Memory.read_insert (m : Memory) (a b : Nat) (v : Byte) (h : ∀ cell ∈ m, cell.1 ≠ a) :
    Memory.read (Memory.insert a v m) b = if b = a then v else Memory.read m b := by
  induction m with
  | nil => simp [Memory.insert, Memory.read, eq_comm]
  | cons cell m ih =>
    obtain ⟨k, w⟩ := cell
    have hk : k ≠ a := h (k, w) (by simp)
    have ih' := ih (fun c hc => h c (by simp [hc]))
    unfold Memory.insert
    split
    · simp [Memory.read, eq_comm]
    · by_cases hb : b = a
      · subst hb
        simp [Memory.read, hk, ih']
      · simp [Memory.read, hb, ih']

theorem Memory.not_mem_erase (m : Memory) (a : Nat) : ∀ cell ∈ Memory.erase m a, cell.1 ≠ a := by
  intro cell h
  simpa [Memory.erase] using (List.mem_filter.mp h).2

/-- Storage `get` after `set` (20_memory.md rule R39), for any list of cells. -/
theorem Memory.read_write (m : Memory) (a b : Nat) (v : Byte) :
    Memory.read (Memory.write m a v) b = if b = a then v else Memory.read m b := by
  unfold Memory.write
  split
  · next h => rw [Memory.read_erase, h]
  · rw [Memory.read_insert _ _ _ _ (Memory.not_mem_erase m a), Memory.read_erase]
    split <;> simp_all

theorem Memory.wfFrom_mono (m : Memory) {lo lo' : Nat} (h : lo' ≤ lo) (hw : Memory.wfFrom lo m = true) :
    Memory.wfFrom lo' m = true := by
  cases m with
  | nil => rfl
  | cons cell m =>
    obtain ⟨k, v⟩ := cell
    simp only [Memory.wfFrom, Bool.and_eq_true, decide_eq_true_eq] at hw ⊢
    exact ⟨⟨⟨le_trans h hw.1.1.1, hw.1.1.2⟩, hw.1.2⟩, hw.2⟩

theorem Memory.wfFrom_erase (m : Memory) (lo a : Nat) (hw : Memory.wfFrom lo m = true) :
    Memory.wfFrom lo (Memory.erase m a) = true := by
  induction m generalizing lo with
  | nil => rfl
  | cons cell m ih =>
    obtain ⟨k, v⟩ := cell
    simp only [Memory.wfFrom, Bool.and_eq_true, decide_eq_true_eq] at hw
    have ih' := ih _ hw.2
    simp only [Memory.erase, List.filter_cons] at ih' ⊢
    split
    · simp only [Memory.wfFrom, Bool.and_eq_true, decide_eq_true_eq]
      exact ⟨hw.1, ih'⟩
    · exact Memory.wfFrom_mono _ (by omega) ih'

theorem Memory.wfFrom_insert (m : Memory) (lo a : Nat) (v : Byte) (hw : Memory.wfFrom lo m = true)
    (hne : ∀ cell ∈ m, cell.1 ≠ a) (hlo : lo ≤ a) (ha : a < 65536) (hv : v ≠ unlistedByte) :
    Memory.wfFrom lo (Memory.insert a v m) = true := by
  induction m generalizing lo with
  | nil => simp [Memory.insert, Memory.wfFrom, hlo, ha, hv]
  | cons cell m ih =>
    obtain ⟨k, w⟩ := cell
    have hk : k ≠ a := hne (k, w) (by simp)
    simp only [Memory.wfFrom, Bool.and_eq_true, decide_eq_true_eq] at hw
    unfold Memory.insert
    split
    · next h =>
      simp only [Memory.wfFrom, Bool.and_eq_true, decide_eq_true_eq]
      exact ⟨⟨⟨hlo, ha⟩, by simpa using hv⟩, ⟨⟨Nat.succ_le_of_lt h, hw.1.1.2⟩, hw.1.2⟩, hw.2⟩
    · next h =>
      simp only [Memory.wfFrom, Bool.and_eq_true, decide_eq_true_eq]
      refine ⟨hw.1, ih _ hw.2 (fun c hc => hne c (by simp [hc])) ?_⟩
      simp only at h
      omega

/-- A write inside the address space keeps the canonical form. -/
theorem Memory.write_wf (m : Memory) (a : Nat) (v : Byte) (ha : a < 65536) (hw : Memory.wf m = true) :
    Memory.wf (Memory.write m a v) = true := by
  unfold Memory.write
  split
  · exact Memory.wfFrom_erase m 0 a hw
  · next hv =>
    exact Memory.wfFrom_insert _ 0 a v (Memory.wfFrom_erase m 0 a hw) (Memory.not_mem_erase m a) (Nat.zero_le _) ha hv

/-- Memory after reset is in canonical form. -/
theorem State.reset_mem_wf : Memory.wf State.reset.mem = true := rfl

end Sys2Proof.Machine
end

