-- ==== Sys2Proof/Laws/State.lean ====
section
/-! SUPPORT. One lemma per field of State per plain update of Machine/Ops.lean, each true by rfl, so that no later proof
unfolds a record update; and the registers and memory bytes of an updated state. -/

namespace Sys2Proof.Machine

@[simp] theorem State.setPc_cfg (s : State) (v : Addr) : (s.setPc v).cfg = s.cfg := rfl
@[simp] theorem State.setPc_a (s : State) (v : Addr) : (s.setPc v).a = s.a := rfl
@[simp] theorem State.setPc_x (s : State) (v : Addr) : (s.setPc v).x = s.x := rfl
@[simp] theorem State.setPc_y (s : State) (v : Addr) : (s.setPc v).y = s.y := rfl
@[simp] theorem State.setPc_sp (s : State) (v : Addr) : (s.setPc v).sp = s.sp := rfl
@[simp] theorem State.setPc_pc (s : State) (v : Addr) : (s.setPc v).pc = v := rfl
@[simp] theorem State.setPc_c (s : State) (v : Addr) : (s.setPc v).c = s.c := rfl
@[simp] theorem State.setPc_z (s : State) (v : Addr) : (s.setPc v).z = s.z := rfl
@[simp] theorem State.setPc_n (s : State) (v : Addr) : (s.setPc v).n = s.n := rfl
@[simp] theorem State.setPc_mem (s : State) (v : Addr) : (s.setPc v).mem = s.mem := rfl
@[simp] theorem State.setPc_runState (s : State) (v : Addr) : (s.setPc v).runState = s.runState := rfl
@[simp] theorem State.setPc_fault (s : State) (v : Addr) : (s.setPc v).fault = s.fault := rfl
@[simp] theorem State.setPc_input (s : State) (v : Addr) : (s.setPc v).input = s.input := rfl
@[simp] theorem State.setPc_draws (s : State) (v : Addr) : (s.setPc v).draws = s.draws := rfl
@[simp] theorem State.setPc_trace (s : State) (v : Addr) : (s.setPc v).trace = s.trace := rfl
@[simp] theorem State.setPc_reg (s : State) (v : Addr) (r : Reg) : (s.setPc v).reg r = s.reg r := by cases r <;> rfl
@[simp] theorem State.setPc_peek (s : State) (v : Addr) (d : Addr) : (s.setPc v).peek d = s.peek d := rfl

@[simp] theorem State.setSp_cfg (s : State) (v : Byte) : (s.setSp v).cfg = s.cfg := rfl
@[simp] theorem State.setSp_a (s : State) (v : Byte) : (s.setSp v).a = s.a := rfl
@[simp] theorem State.setSp_x (s : State) (v : Byte) : (s.setSp v).x = s.x := rfl
@[simp] theorem State.setSp_y (s : State) (v : Byte) : (s.setSp v).y = s.y := rfl
@[simp] theorem State.setSp_sp (s : State) (v : Byte) : (s.setSp v).sp = v := rfl
@[simp] theorem State.setSp_pc (s : State) (v : Byte) : (s.setSp v).pc = s.pc := rfl
@[simp] theorem State.setSp_c (s : State) (v : Byte) : (s.setSp v).c = s.c := rfl
@[simp] theorem State.setSp_z (s : State) (v : Byte) : (s.setSp v).z = s.z := rfl
@[simp] theorem State.setSp_n (s : State) (v : Byte) : (s.setSp v).n = s.n := rfl
@[simp] theorem State.setSp_mem (s : State) (v : Byte) : (s.setSp v).mem = s.mem := rfl
@[simp] theorem State.setSp_runState (s : State) (v : Byte) : (s.setSp v).runState = s.runState := rfl
@[simp] theorem State.setSp_fault (s : State) (v : Byte) : (s.setSp v).fault = s.fault := rfl
@[simp] theorem State.setSp_input (s : State) (v : Byte) : (s.setSp v).input = s.input := rfl
@[simp] theorem State.setSp_draws (s : State) (v : Byte) : (s.setSp v).draws = s.draws := rfl
@[simp] theorem State.setSp_trace (s : State) (v : Byte) : (s.setSp v).trace = s.trace := rfl
@[simp] theorem State.setSp_reg (s : State) (v : Byte) (r : Reg) : (s.setSp v).reg r = s.reg r := by cases r <;> rfl
@[simp] theorem State.setSp_peek (s : State) (v : Byte) (d : Addr) : (s.setSp v).peek d = s.peek d := rfl

@[simp] theorem State.carryIf_cfg (s : State) (p : Bool) : (s.carryIf p).cfg = s.cfg := rfl
@[simp] theorem State.carryIf_a (s : State) (p : Bool) : (s.carryIf p).a = s.a := rfl
@[simp] theorem State.carryIf_x (s : State) (p : Bool) : (s.carryIf p).x = s.x := rfl
@[simp] theorem State.carryIf_y (s : State) (p : Bool) : (s.carryIf p).y = s.y := rfl
@[simp] theorem State.carryIf_sp (s : State) (p : Bool) : (s.carryIf p).sp = s.sp := rfl
@[simp] theorem State.carryIf_pc (s : State) (p : Bool) : (s.carryIf p).pc = s.pc := rfl
@[simp] theorem State.carryIf_c (s : State) (p : Bool) : (s.carryIf p).c = p := rfl
@[simp] theorem State.carryIf_z (s : State) (p : Bool) : (s.carryIf p).z = s.z := rfl
@[simp] theorem State.carryIf_n (s : State) (p : Bool) : (s.carryIf p).n = s.n := rfl
@[simp] theorem State.carryIf_mem (s : State) (p : Bool) : (s.carryIf p).mem = s.mem := rfl
@[simp] theorem State.carryIf_runState (s : State) (p : Bool) : (s.carryIf p).runState = s.runState := rfl
@[simp] theorem State.carryIf_fault (s : State) (p : Bool) : (s.carryIf p).fault = s.fault := rfl
@[simp] theorem State.carryIf_input (s : State) (p : Bool) : (s.carryIf p).input = s.input := rfl
@[simp] theorem State.carryIf_draws (s : State) (p : Bool) : (s.carryIf p).draws = s.draws := rfl
@[simp] theorem State.carryIf_trace (s : State) (p : Bool) : (s.carryIf p).trace = s.trace := rfl
@[simp] theorem State.carryIf_reg (s : State) (p : Bool) (r : Reg) : (s.carryIf p).reg r = s.reg r := by cases r <;> rfl
@[simp] theorem State.carryIf_peek (s : State) (p : Bool) (d : Addr) : (s.carryIf p).peek d = s.peek d := rfl

@[simp] theorem State.setFlagsZN_cfg (s : State) (p q : Bool) : (s.setFlagsZN p q).cfg = s.cfg := rfl
@[simp] theorem State.setFlagsZN_a (s : State) (p q : Bool) : (s.setFlagsZN p q).a = s.a := rfl
@[simp] theorem State.setFlagsZN_x (s : State) (p q : Bool) : (s.setFlagsZN p q).x = s.x := rfl
@[simp] theorem State.setFlagsZN_y (s : State) (p q : Bool) : (s.setFlagsZN p q).y = s.y := rfl
@[simp] theorem State.setFlagsZN_sp (s : State) (p q : Bool) : (s.setFlagsZN p q).sp = s.sp := rfl
@[simp] theorem State.setFlagsZN_pc (s : State) (p q : Bool) : (s.setFlagsZN p q).pc = s.pc := rfl
@[simp] theorem State.setFlagsZN_c (s : State) (p q : Bool) : (s.setFlagsZN p q).c = s.c := rfl
@[simp] theorem State.setFlagsZN_z (s : State) (p q : Bool) : (s.setFlagsZN p q).z = p := rfl
@[simp] theorem State.setFlagsZN_n (s : State) (p q : Bool) : (s.setFlagsZN p q).n = q := rfl
@[simp] theorem State.setFlagsZN_mem (s : State) (p q : Bool) : (s.setFlagsZN p q).mem = s.mem := rfl
@[simp] theorem State.setFlagsZN_runState (s : State) (p q : Bool) : (s.setFlagsZN p q).runState = s.runState := rfl
@[simp] theorem State.setFlagsZN_fault (s : State) (p q : Bool) : (s.setFlagsZN p q).fault = s.fault := rfl
@[simp] theorem State.setFlagsZN_input (s : State) (p q : Bool) : (s.setFlagsZN p q).input = s.input := rfl
@[simp] theorem State.setFlagsZN_draws (s : State) (p q : Bool) : (s.setFlagsZN p q).draws = s.draws := rfl
@[simp] theorem State.setFlagsZN_trace (s : State) (p q : Bool) : (s.setFlagsZN p q).trace = s.trace := rfl
@[simp] theorem State.setFlagsZN_reg (s : State) (p q : Bool) (r : Reg) : (s.setFlagsZN p q).reg r = s.reg r := by cases r <;> rfl
@[simp] theorem State.setFlagsZN_peek (s : State) (p q : Bool) (d : Addr) : (s.setFlagsZN p q).peek d = s.peek d := rfl

@[simp] theorem State.emit_cfg (s : State) (e : Event) : (s.emit e).cfg = s.cfg := rfl
@[simp] theorem State.emit_a (s : State) (e : Event) : (s.emit e).a = s.a := rfl
@[simp] theorem State.emit_x (s : State) (e : Event) : (s.emit e).x = s.x := rfl
@[simp] theorem State.emit_y (s : State) (e : Event) : (s.emit e).y = s.y := rfl
@[simp] theorem State.emit_sp (s : State) (e : Event) : (s.emit e).sp = s.sp := rfl
@[simp] theorem State.emit_pc (s : State) (e : Event) : (s.emit e).pc = s.pc := rfl
@[simp] theorem State.emit_c (s : State) (e : Event) : (s.emit e).c = s.c := rfl
@[simp] theorem State.emit_z (s : State) (e : Event) : (s.emit e).z = s.z := rfl
@[simp] theorem State.emit_n (s : State) (e : Event) : (s.emit e).n = s.n := rfl
@[simp] theorem State.emit_mem (s : State) (e : Event) : (s.emit e).mem = s.mem := rfl
@[simp] theorem State.emit_runState (s : State) (e : Event) : (s.emit e).runState = s.runState := rfl
@[simp] theorem State.emit_fault (s : State) (e : Event) : (s.emit e).fault = s.fault := rfl
@[simp] theorem State.emit_input (s : State) (e : Event) : (s.emit e).input = s.input := rfl
@[simp] theorem State.emit_draws (s : State) (e : Event) : (s.emit e).draws = s.draws := rfl
@[simp] theorem State.emit_trace (s : State) (e : Event) : (s.emit e).trace = s.trace ++ [e] := rfl
@[simp] theorem State.emit_reg (s : State) (e : Event) (r : Reg) : (s.emit e).reg r = s.reg r := by cases r <;> rfl
@[simp] theorem State.emit_peek (s : State) (e : Event) (d : Addr) : (s.emit e).peek d = s.peek d := rfl

@[simp] theorem State.countDraw_cfg (s : State) : s.countDraw.cfg = s.cfg := rfl
@[simp] theorem State.countDraw_a (s : State) : s.countDraw.a = s.a := rfl
@[simp] theorem State.countDraw_x (s : State) : s.countDraw.x = s.x := rfl
@[simp] theorem State.countDraw_y (s : State) : s.countDraw.y = s.y := rfl
@[simp] theorem State.countDraw_sp (s : State) : s.countDraw.sp = s.sp := rfl
@[simp] theorem State.countDraw_pc (s : State) : s.countDraw.pc = s.pc := rfl
@[simp] theorem State.countDraw_c (s : State) : s.countDraw.c = s.c := rfl
@[simp] theorem State.countDraw_z (s : State) : s.countDraw.z = s.z := rfl
@[simp] theorem State.countDraw_n (s : State) : s.countDraw.n = s.n := rfl
@[simp] theorem State.countDraw_mem (s : State) : s.countDraw.mem = s.mem := rfl
@[simp] theorem State.countDraw_runState (s : State) : s.countDraw.runState = s.runState := rfl
@[simp] theorem State.countDraw_fault (s : State) : s.countDraw.fault = s.fault := rfl
@[simp] theorem State.countDraw_input (s : State) : s.countDraw.input = s.input := rfl
@[simp] theorem State.countDraw_draws (s : State) : s.countDraw.draws = s.draws + 1 := rfl
@[simp] theorem State.countDraw_trace (s : State) : s.countDraw.trace = s.trace := rfl
@[simp] theorem State.countDraw_reg (s : State) (r : Reg) : s.countDraw.reg r = s.reg r := by cases r <;> rfl
@[simp] theorem State.countDraw_peek (s : State) (d : Addr) : s.countDraw.peek d = s.peek d := rfl

@[simp] theorem State.poke_cfg (s : State) (b : Addr) (v : Byte) : (s.poke b v).cfg = s.cfg := rfl
@[simp] theorem State.poke_a (s : State) (b : Addr) (v : Byte) : (s.poke b v).a = s.a := rfl
@[simp] theorem State.poke_x (s : State) (b : Addr) (v : Byte) : (s.poke b v).x = s.x := rfl
@[simp] theorem State.poke_y (s : State) (b : Addr) (v : Byte) : (s.poke b v).y = s.y := rfl
@[simp] theorem State.poke_sp (s : State) (b : Addr) (v : Byte) : (s.poke b v).sp = s.sp := rfl
@[simp] theorem State.poke_pc (s : State) (b : Addr) (v : Byte) : (s.poke b v).pc = s.pc := rfl
@[simp] theorem State.poke_c (s : State) (b : Addr) (v : Byte) : (s.poke b v).c = s.c := rfl
@[simp] theorem State.poke_z (s : State) (b : Addr) (v : Byte) : (s.poke b v).z = s.z := rfl
@[simp] theorem State.poke_n (s : State) (b : Addr) (v : Byte) : (s.poke b v).n = s.n := rfl
@[simp] theorem State.poke_mem (s : State) (b : Addr) (v : Byte) : (s.poke b v).mem = Memory.write s.mem b.toNat v := rfl
@[simp] theorem State.poke_runState (s : State) (b : Addr) (v : Byte) : (s.poke b v).runState = s.runState := rfl
@[simp] theorem State.poke_fault (s : State) (b : Addr) (v : Byte) : (s.poke b v).fault = s.fault := rfl
@[simp] theorem State.poke_input (s : State) (b : Addr) (v : Byte) : (s.poke b v).input = s.input := rfl
@[simp] theorem State.poke_draws (s : State) (b : Addr) (v : Byte) : (s.poke b v).draws = s.draws := rfl
@[simp] theorem State.poke_trace (s : State) (b : Addr) (v : Byte) : (s.poke b v).trace = s.trace := rfl
@[simp] theorem State.poke_reg (s : State) (b : Addr) (v : Byte) (r : Reg) : (s.poke b v).reg r = s.reg r := by cases r <;> rfl

@[simp] theorem halt_cfg (s : State) : (halt s).cfg = s.cfg := rfl
@[simp] theorem halt_a (s : State) : (halt s).a = s.a := rfl
@[simp] theorem halt_x (s : State) : (halt s).x = s.x := rfl
@[simp] theorem halt_y (s : State) : (halt s).y = s.y := rfl
@[simp] theorem halt_sp (s : State) : (halt s).sp = s.sp := rfl
@[simp] theorem halt_pc (s : State) : (halt s).pc = s.pc := rfl
@[simp] theorem halt_c (s : State) : (halt s).c = s.c := rfl
@[simp] theorem halt_z (s : State) : (halt s).z = s.z := rfl
@[simp] theorem halt_n (s : State) : (halt s).n = s.n := rfl
@[simp] theorem halt_mem (s : State) : (halt s).mem = s.mem := rfl
@[simp] theorem halt_runState (s : State) : (halt s).runState = .halted := rfl
@[simp] theorem halt_fault (s : State) : (halt s).fault = s.fault := rfl
@[simp] theorem halt_input (s : State) : (halt s).input = s.input := rfl
@[simp] theorem halt_draws (s : State) : (halt s).draws = s.draws := rfl
@[simp] theorem halt_trace (s : State) : (halt s).trace = s.trace := rfl
@[simp] theorem halt_reg (s : State) (r : Reg) : (halt s).reg r = s.reg r := by cases r <;> rfl
@[simp] theorem halt_peek (s : State) (d : Addr) : (halt s).peek d = s.peek d := rfl

@[simp] theorem raiseUnknownOpcode_cfg (s : State) (op : Byte) : (raiseUnknownOpcode op s).cfg = s.cfg := rfl
@[simp] theorem raiseUnknownOpcode_a (s : State) (op : Byte) : (raiseUnknownOpcode op s).a = s.a := rfl
@[simp] theorem raiseUnknownOpcode_x (s : State) (op : Byte) : (raiseUnknownOpcode op s).x = s.x := rfl
@[simp] theorem raiseUnknownOpcode_y (s : State) (op : Byte) : (raiseUnknownOpcode op s).y = s.y := rfl
@[simp] theorem raiseUnknownOpcode_sp (s : State) (op : Byte) : (raiseUnknownOpcode op s).sp = s.sp := rfl
@[simp] theorem raiseUnknownOpcode_pc (s : State) (op : Byte) : (raiseUnknownOpcode op s).pc = s.pc := rfl
@[simp] theorem raiseUnknownOpcode_c (s : State) (op : Byte) : (raiseUnknownOpcode op s).c = s.c := rfl
@[simp] theorem raiseUnknownOpcode_z (s : State) (op : Byte) : (raiseUnknownOpcode op s).z = s.z := rfl
@[simp] theorem raiseUnknownOpcode_n (s : State) (op : Byte) : (raiseUnknownOpcode op s).n = s.n := rfl
@[simp] theorem raiseUnknownOpcode_mem (s : State) (op : Byte) : (raiseUnknownOpcode op s).mem = s.mem := rfl
@[simp] theorem raiseUnknownOpcode_runState (s : State) (op : Byte) : (raiseUnknownOpcode op s).runState = .faulted := rfl
@[simp] theorem raiseUnknownOpcode_fault (s : State) (op : Byte) : (raiseUnknownOpcode op s).fault = some ⟨op, s.pc⟩ := rfl
@[simp] theorem raiseUnknownOpcode_input (s : State) (op : Byte) : (raiseUnknownOpcode op s).input = s.input := rfl
@[simp] theorem raiseUnknownOpcode_draws (s : State) (op : Byte) : (raiseUnknownOpcode op s).draws = s.draws := rfl
@[simp] theorem raiseUnknownOpcode_trace (s : State) (op : Byte) : (raiseUnknownOpcode op s).trace = s.trace := rfl
@[simp] theorem raiseUnknownOpcode_reg (s : State) (op : Byte) (r : Reg) : (raiseUnknownOpcode op s).reg r = s.reg r := by cases r <;> rfl
@[simp] theorem raiseUnknownOpcode_peek (s : State) (op : Byte) (d : Addr) : (raiseUnknownOpcode op s).peek d = s.peek d := rfl

@[simp] theorem State.setReg_cfg (s : State) (r : Reg) (v : Byte) : (s.setReg r v).cfg = s.cfg := by cases r <;> rfl
@[simp] theorem State.setReg_a (s : State) (r : Reg) (v : Byte) : (s.setReg r v).a = if r = .a then v else s.a := by cases r <;> rfl
@[simp] theorem State.setReg_x (s : State) (r : Reg) (v : Byte) : (s.setReg r v).x = if r = .x then v else s.x := by cases r <;> rfl
@[simp] theorem State.setReg_y (s : State) (r : Reg) (v : Byte) : (s.setReg r v).y = if r = .y then v else s.y := by cases r <;> rfl
@[simp] theorem State.setReg_sp (s : State) (r : Reg) (v : Byte) : (s.setReg r v).sp = s.sp := by cases r <;> rfl
@[simp] theorem State.setReg_pc (s : State) (r : Reg) (v : Byte) : (s.setReg r v).pc = s.pc := by cases r <;> rfl
@[simp] theorem State.setReg_c (s : State) (r : Reg) (v : Byte) : (s.setReg r v).c = s.c := by cases r <;> rfl
@[simp] theorem State.setReg_z (s : State) (r : Reg) (v : Byte) : (s.setReg r v).z = s.z := by cases r <;> rfl
@[simp] theorem State.setReg_n (s : State) (r : Reg) (v : Byte) : (s.setReg r v).n = s.n := by cases r <;> rfl
@[simp] theorem State.setReg_mem (s : State) (r : Reg) (v : Byte) : (s.setReg r v).mem = s.mem := by cases r <;> rfl
@[simp] theorem State.setReg_runState (s : State) (r : Reg) (v : Byte) : (s.setReg r v).runState = s.runState := by cases r <;> rfl
@[simp] theorem State.setReg_fault (s : State) (r : Reg) (v : Byte) : (s.setReg r v).fault = s.fault := by cases r <;> rfl
@[simp] theorem State.setReg_input (s : State) (r : Reg) (v : Byte) : (s.setReg r v).input = s.input := by cases r <;> rfl
@[simp] theorem State.setReg_draws (s : State) (r : Reg) (v : Byte) : (s.setReg r v).draws = s.draws := by cases r <;> rfl
@[simp] theorem State.setReg_trace (s : State) (r : Reg) (v : Byte) : (s.setReg r v).trace = s.trace := by cases r <;> rfl
@[simp] theorem State.setReg_reg (s : State) (r q : Reg) (v : Byte) :
    (s.setReg r v).reg q = if q = r then v else s.reg q := by cases r <;> cases q <;> rfl
@[simp] theorem State.setReg_peek (s : State) (r : Reg) (v : Byte) (d : Addr) : (s.setReg r v).peek d = s.peek d := by
  cases r <;> rfl

@[simp] theorem State.reg_a (s : State) : s.reg .a = s.a := rfl
@[simp] theorem State.reg_x (s : State) : s.reg .x = s.x := rfl
@[simp] theorem State.reg_y (s : State) : s.reg .y = s.y := rfl

end Sys2Proof.Machine
end

