-- ==== Sys2Proof/Laws/Ops.lean ====
section
/-! SUPPORT. One lemma per shared operation of Machine/Ops.lean that says everything it does, so that later proofs cite it
instead of unfolding the operation. -/

namespace Sys2Proof.Machine

/-! ### Bytes and addresses -/

theorem cat_hi8_lo8 (a : Addr) : cat (hi8 a) (lo8 a) = a := by
  apply BitVec.eq_of_getLsbD_eq
  intro i hi
  simp only [cat, hi8, lo8, BitVec.getLsbD_append, BitVec.getLsbD_extractLsb']
  by_cases h : i < 8
  · simp [h]
  · simp [h, show i - 8 < 8 by omega, show 8 + (i - 8) = i by omega]

theorem zext16_injective {p q : Byte} (h : zext16 p = zext16 q) : p = q := by
  have := congrArg BitVec.toNat h
  simp only [zext16, BitVec.toNat_setWidth] at this
  apply BitVec.eq_of_toNat_eq
  omega

theorem stackAddr_injective {cfg : Config} {p q : Byte} (h : stackAddr cfg p = stackAddr cfg q) : p = q :=
  zext16_injective (by simpa [stackAddr] using h)

/-! ### Raw memory of a state -/

/-- A raw store changes the byte at its address and no other (20_memory.md rule R39). -/
@[simp] theorem State.poke_peek (s : State) (a b : Addr) (v : Byte) :
    (s.poke a v).peek b = if b = a then v else s.peek b := by
  simp [State.peek, State.poke, Memory.read_write, BitVec.toNat_inj]

theorem State.poke_wf (s : State) (a : Addr) (v : Byte) (h : Memory.wf s.mem = true) :
    Memory.wf (s.poke a v).mem = true := by
  simpa using Memory.write_wf s.mem a.toNat v a.isLt h

/-! ### Noting bus reads -/

theorem drawsIn_append (cfg : Config) (xs ys : List Event) : drawsIn cfg (xs ++ ys) = drawsIn cfg xs + drawsIn cfg ys := by
  simp [drawsIn]

theorem busCount_append (xs ys : List Event) : busCount (xs ++ ys) = busCount xs + busCount ys := by
  simp [busCount]

@[simp] theorem busCount_nil : busCount [] = 0 := rfl

@[simp] theorem busCount_read (a : Addr) (evs : List Event) : busCount (.read a :: evs) = busCount evs + 1 := by
  simp [busCount, Event.isBus, List.countP_cons]

@[simp] theorem State.note_nil (s : State) : s.note [] = s := by simp [State.note, drawsIn]

theorem State.note_note (s : State) (xs ys : List Event) : (s.note xs).note ys = s.note (xs ++ ys) := by
  simp [State.note, drawsIn_append, Nat.add_assoc]

@[simp] theorem State.note_cfg (s : State) (evs : List Event) : (s.note evs).cfg = s.cfg := rfl
@[simp] theorem State.note_a (s : State) (evs : List Event) : (s.note evs).a = s.a := rfl
@[simp] theorem State.note_x (s : State) (evs : List Event) : (s.note evs).x = s.x := rfl
@[simp] theorem State.note_y (s : State) (evs : List Event) : (s.note evs).y = s.y := rfl
@[simp] theorem State.note_sp (s : State) (evs : List Event) : (s.note evs).sp = s.sp := rfl
@[simp] theorem State.note_pc (s : State) (evs : List Event) : (s.note evs).pc = s.pc := rfl
@[simp] theorem State.note_c (s : State) (evs : List Event) : (s.note evs).c = s.c := rfl
@[simp] theorem State.note_z (s : State) (evs : List Event) : (s.note evs).z = s.z := rfl
@[simp] theorem State.note_n (s : State) (evs : List Event) : (s.note evs).n = s.n := rfl
@[simp] theorem State.note_mem (s : State) (evs : List Event) : (s.note evs).mem = s.mem := rfl
@[simp] theorem State.note_runState (s : State) (evs : List Event) : (s.note evs).runState = s.runState := rfl
@[simp] theorem State.note_fault (s : State) (evs : List Event) : (s.note evs).fault = s.fault := rfl
@[simp] theorem State.note_input (s : State) (evs : List Event) : (s.note evs).input = s.input := rfl
@[simp] theorem State.note_trace (s : State) (evs : List Event) : (s.note evs).trace = s.trace ++ evs := rfl
@[simp] theorem State.note_draws (s : State) (evs : List Event) : (s.note evs).draws = s.draws + drawsIn s.cfg evs := rfl
@[simp] theorem State.note_reg (s : State) (evs : List Event) (r : Reg) : (s.note evs).reg r = s.reg r := by
  cases r <;> rfl
@[simp] theorem State.note_peek (s : State) (evs : List Event) (a : Addr) : (s.note evs).peek a = s.peek a := rfl

/-! ### The bus -/

/-- A bus read changes the trace and the draw count, nothing else (20_memory.md rules R40, R42, R43). -/
theorem busRead_state (a : Addr) (s : State) : (busRead a s).2 = s.note [.read a] := by
  unfold busRead
  split
  · next h => simp [State.note, drawsIn, State.emit, State.countDraw, h]
  · next h => split <;> simp [State.note, drawsIn, State.emit, h]

/-- A bus write is the raw store and its events (20_memory.md rules R41, R44, R46). -/
theorem busWrite_state (a : Addr) (v : Byte) (s : State) :
    busWrite a v s = { s.poke a v with trace := s.trace ++ writeEvents s.cfg a v } := by
  simp only [busWrite, writeEvents]
  split <;> simp [State.emit, State.poke]

@[simp] theorem drawsIn_writeEvents (cfg cfg' : Config) (a : Addr) (v : Byte) :
    drawsIn cfg (writeEvents cfg' a v) = 0 := by
  unfold writeEvents
  split <;> simp [drawsIn, pixelEvent]

@[simp] theorem busCount_writeEvents (cfg : Config) (a : Addr) (v : Byte) : busCount (writeEvents cfg a v) = 1 := by
  unfold writeEvents
  split <;> simp [busCount, Event.isBus, pixelEvent, List.countP_cons]

@[simp] theorem drawsIn_nil (cfg : Config) : drawsIn cfg [] = 0 := rfl

/-- A read of RANDOM_ADDR is one draw, any other read none. -/
theorem drawsIn_read (cfg : Config) (a : Addr) (evs : List Event) :
    drawsIn cfg (.read a :: evs) = (if a = cfg.randomAddr then 1 else 0) + drawsIn cfg evs := by
  simp [drawsIn, List.countP_cons, Nat.add_comm]

/-! ### Pixel events follow their writes -/

@[simp] theorem pixelsFollowWrites_nil (cfg : Config) : pixelsFollowWrites cfg [] := rfl

theorem pixelsFollowWrites_append {cfg : Config} {xs ys : List Event} (hx : pixelsFollowWrites cfg xs)
    (hy : pixelsFollowWrites cfg ys) : pixelsFollowWrites cfg (xs ++ ys) := by
  unfold pixelsFollowWrites at *
  rw [List.filter_append, List.flatMap_append, ← hx, ← hy]

@[simp] theorem pixelsFollowWrites_read (cfg : Config) (a : Addr) (evs : List Event) :
    pixelsFollowWrites cfg (.read a :: evs) ↔ pixelsFollowWrites cfg evs := by
  simp [pixelsFollowWrites, List.filter_cons, Event.isBus]

@[simp] theorem pixelsFollowWrites_write (cfg : Config) (a : Addr) (v : Byte) :
    pixelsFollowWrites cfg (writeEvents cfg a v) := by
  simp only [pixelsFollowWrites, writeEvents]
  split <;> simp [List.filter_cons, Event.isBus, pixelEvent, *]

/-- A fetch reads the byte at PC through the bus and advances PC (20_memory.md rule R49). -/
theorem fetch_state (s : State) : (fetch s).2 = (s.note [.read s.pc]).setPc (s.pc + 1) := by
  simp [fetch, busRead_state]

/-- Fetching `k` bytes notes `k` reads and advances PC by `k`. -/
theorem fetchBytes_state (k : Nat) (s : State) :
    (fetchBytes k s).2 = (s.note (fetchEvents k s.pc)).setPc (s.pc + BitVec.ofNat 16 k) := by
  induction k generalizing s with
  | zero => simp [fetchBytes, fetchEvents, State.setPc]
  | succ k ih =>
    have hpc : (s.pc + 1) + BitVec.ofNat 16 k = s.pc + BitVec.ofNat 16 (k + 1) := by
      rw [BitVec.add_assoc, BitVec.add_comm 1, BitVec.ofNat_add]
      rfl
    simp only [fetchBytes, ih, fetch_state, State.setPc_pc, fetchEvents, hpc]
    simp [State.setPc, State.note, drawsIn, List.countP_cons, Nat.add_assoc, Nat.add_comm]

theorem fetchBytes_length (k : Nat) (s : State) : (fetchBytes k s).1.length = k := by
  induction k generalizing s with
  | zero => rfl
  | succ k ih => simp [fetchBytes, ih]

/-! ### The stack -/

/-- A push decrements SP, stores at its slot and notes the write (20_memory.md rule R53). -/
theorem push_state (v : Byte) (s : State) :
    push v s = { (s.setSp (s.sp - 1)).poke (stackAddr s.cfg (s.sp - 1)) v with
      trace := s.trace ++ writeEvents s.cfg (stackAddr s.cfg (s.sp - 1)) v } := by
  simp [push, busWrite_state]

/-- A pull notes one read and increments SP (20_memory.md rule R54). -/
theorem pull_state (s : State) : (pull s).2 = (s.note [.read (stackAddr s.cfg s.sp)]).setSp (s.sp + 1) := by
  simp [pull, busRead_state]

/-- A call pushes the high, then the low byte of PC, and jumps (20_memory.md rule R57). -/
theorem callTo_state (a : Addr) (s : State) :
    callTo a s = (push (lo8 s.pc) (push (hi8 s.pc) s)).setPc a := rfl

/-- A return reads two slots, adds two to SP and jumps to what it read (20_memory.md rule R58). -/
theorem returnFrom_state (s : State) :
    returnFrom s = ((s.note [.read (stackAddr s.cfg s.sp), .read (stackAddr s.cfg (s.sp + 1))]).setSp (s.sp + 1 + 1)).setPc
      (cat (pull (pull s).2).1 (pull s).1) := by
  simp only [returnFrom, pull_state, State.setSp_cfg, State.setSp_sp, State.note_cfg]
  simp [State.setPc, State.setSp, State.note, drawsIn, List.countP_cons, Nat.add_assoc, Nat.add_comm]

/-! ### The register write -/

/-- A register write stores the value and sets Z and N from it (10_state.md rule R19). -/
theorem writeReg_state (r : Reg) (v : Byte) (s : State) :
    writeReg r v s = (s.setReg r v).setFlagsZN (decide (v = 0)) v.msb := rfl

end Sys2Proof.Machine
end

