-- ==== Sys2Proof/Laws/Operands.lean ====
section
/-! SUPPORT. One lemma per operation of the microengine (40_step_and_addressing.md rules R86 to R98): resolving an operand
notes bus reads and changes nothing else. -/

namespace Sys2Proof.Machine

/-- Reading a zero-page pointer is two bus reads, low byte then high byte. -/
theorem readPointer_state (p : Byte) (s : State) :
    (readPointer p s).2 = s.note [.read (zext16 p), .read (ptrHi s.cfg p)] := by
  simp [readPointer, busRead_state, State.note_note]

/-- Forming an effective address makes the mode's pointer reads and nothing else (rule R86). -/
theorem effAddr_state (f : AddrForm) (s : State) : (effAddr f s).2 = s.note (f.pointerEvents s) := by
  cases f <;> simp [effAddr, AddrForm.pointerEvents, readPointer_state]

/-- Reading an operand value makes the pointer reads and one data read, none for an immediate (rule R84). -/
theorem opnd_state (src : Source) (s : State) : (opnd src s).2 = s.note (src.events s) := by
  cases src with
  | imm b => simp [opnd, Source.events]
  | mem f => simp [opnd, Source.events, busRead_state, effAddr_state, State.note_note]

/-! ### The shared actions -/

/-- LDA, LDX, LDY as one equation. -/
theorem loadReg_state (r : Reg) (src : Source) (s : State) :
    loadReg r src s = writeReg r (opnd src s).1 (s.note (src.events s)) := by
  simp [loadReg, opnd_state]

/-- STA, STX, STY as one equation. -/
theorem storeReg_state (r : Reg) (f : AddrForm) (s : State) :
    storeReg r f s = busWrite (effAddr f s).1 (s.reg r) (s.note (f.pointerEvents s)) := by
  simp [storeReg, effAddr_state]

/-- ADC and SBC as one equation. -/
theorem aluCarry_state (op : Byte → Byte → Bool → Byte × Bool) (src : Source) (s : State) :
    aluCarry op src s = writeReg .a (op s.a (opnd src s).1 s.c).1
      ((s.note (src.events s)).carryIf (op s.a (opnd src s).1 s.c).2) := by
  simp [aluCarry, opnd_state]

/-- AND, ORA, EOR as one equation. -/
theorem aluLogic_state (op : Byte → Byte → Byte) (src : Source) (s : State) :
    aluLogic op src s = writeReg .a (op s.a (opnd src s).1) (s.note (src.events s)) := by
  simp [aluLogic, opnd_state]

/-- CMP, CPX, CPY as one equation. -/
theorem compareReg_state (r : Reg) (src : Source) (s : State) :
    compareReg r src s = compareFlags (s.reg r) (opnd src s).1 (s.note (src.events s)) := by
  simp [compareReg, opnd_state]

/-- BIT as one equation. -/
theorem bitTest_state (f : AddrForm) (s : State) :
    bitTest f s = bitFlags s.a (opnd (.mem f) s).1 (s.note ((Source.mem f).events s)) := by
  simp [bitTest, opnd_state]

/-- INC and DEC as one equation: the byte read is the operand value. -/
theorem stepMem_state (op : Byte → Byte) (f : AddrForm) (s : State) :
    stepMem op f s = setZN (op (opnd (.mem f) s).1)
      (busWrite (effAddr f s).1 (op (opnd (.mem f) s).1) (s.note ((Source.mem f).events s))) := by
  simp [stepMem, opnd, busRead_state, effAddr_state, Source.events, State.note_note]

/-- The memory form of a shift as one equation. -/
theorem shiftMem_state (op : Byte → Bool → Byte × Bool) (f : AddrForm) (s : State) :
    shiftMem op f s = setZN (op (opnd (.mem f) s).1 s.c).1
      (busWrite (effAddr f s).1 (op (opnd (.mem f) s).1 s.c).1
        ((s.note ((Source.mem f).events s)).carryIf (op (opnd (.mem f) s).1 s.c).2)) := by
  simp [shiftMem, opnd, busRead_state, effAddr_state, Source.events, State.note_note]

end Sys2Proof.Machine
end

