-- ==== Sys2Proof/Laws/PerInstr.lean ====
section
/-! SUPPORT. The per-instruction family `Encoding`: about each instruction as syntax, that the default table's entry for its
opcode is its own descriptor (the table of 30_encoding.md rule R72 agrees with the encoding lines of rules R99 to
R149), that its operand bytes are as many as its mode consumes, and that they rebuild it. -/

namespace Sys2Proof.Laws.Encoding

/-- What the encoding of one instruction satisfies. -/
def Statement (i : Instr) : Prop :=
  lookup defaultTable i.opcode = some i.desc ∧ i.operands.length = i.desc.mode.operandBytes ∧
    ∀ rest : List Byte, (takeOperands i.desc.mode.operandBytes (i.operands ++ rest)).bind
      (fun p => (Instr.build i.desc.mnemonic i.desc.mode p.1 p.2.1).map (fun j => (j, p.2.2))) = some (i, rest)

theorem ldaImm (b : Byte) : Statement (.ldaImm b) := ⟨rfl, rfl, fun _ => rfl⟩

theorem ldaZp (b : Byte) : Statement (.ldaZp b) := ⟨rfl, rfl, fun _ => rfl⟩

theorem ldaZpx (b : Byte) : Statement (.ldaZpx b) := ⟨rfl, rfl, fun _ => rfl⟩

theorem ldaIndx (b : Byte) : Statement (.ldaIndx b) := ⟨rfl, rfl, fun _ => rfl⟩

theorem ldaIndy (b : Byte) : Statement (.ldaIndy b) := ⟨rfl, rfl, fun _ => rfl⟩

theorem ldaAbs (lo hi : Byte) : Statement (.ldaAbs lo hi) := ⟨rfl, rfl, fun _ => rfl⟩

theorem ldaAbsy (lo hi : Byte) : Statement (.ldaAbsy lo hi) := ⟨rfl, rfl, fun _ => rfl⟩

theorem ldxImm (b : Byte) : Statement (.ldxImm b) := ⟨rfl, rfl, fun _ => rfl⟩

theorem ldxZp (b : Byte) : Statement (.ldxZp b) := ⟨rfl, rfl, fun _ => rfl⟩

theorem ldxAbs (lo hi : Byte) : Statement (.ldxAbs lo hi) := ⟨rfl, rfl, fun _ => rfl⟩

theorem ldxAbsy (lo hi : Byte) : Statement (.ldxAbsy lo hi) := ⟨rfl, rfl, fun _ => rfl⟩

theorem ldyImm (b : Byte) : Statement (.ldyImm b) := ⟨rfl, rfl, fun _ => rfl⟩

theorem ldyZp (b : Byte) : Statement (.ldyZp b) := ⟨rfl, rfl, fun _ => rfl⟩

theorem ldyZpx (b : Byte) : Statement (.ldyZpx b) := ⟨rfl, rfl, fun _ => rfl⟩

theorem ldyAbs (lo hi : Byte) : Statement (.ldyAbs lo hi) := ⟨rfl, rfl, fun _ => rfl⟩

theorem staZp (b : Byte) : Statement (.staZp b) := ⟨rfl, rfl, fun _ => rfl⟩

theorem staZpx (b : Byte) : Statement (.staZpx b) := ⟨rfl, rfl, fun _ => rfl⟩

theorem staIndx (b : Byte) : Statement (.staIndx b) := ⟨rfl, rfl, fun _ => rfl⟩

theorem staIndy (b : Byte) : Statement (.staIndy b) := ⟨rfl, rfl, fun _ => rfl⟩

theorem staAbs (lo hi : Byte) : Statement (.staAbs lo hi) := ⟨rfl, rfl, fun _ => rfl⟩

theorem staAbsy (lo hi : Byte) : Statement (.staAbsy lo hi) := ⟨rfl, rfl, fun _ => rfl⟩

theorem stxZp (b : Byte) : Statement (.stxZp b) := ⟨rfl, rfl, fun _ => rfl⟩

theorem stxAbs (lo hi : Byte) : Statement (.stxAbs lo hi) := ⟨rfl, rfl, fun _ => rfl⟩

theorem styZp (b : Byte) : Statement (.styZp b) := ⟨rfl, rfl, fun _ => rfl⟩

theorem styZpx (b : Byte) : Statement (.styZpx b) := ⟨rfl, rfl, fun _ => rfl⟩

theorem styAbs (lo hi : Byte) : Statement (.styAbs lo hi) := ⟨rfl, rfl, fun _ => rfl⟩

theorem tax : Statement .tax := ⟨rfl, rfl, fun _ => rfl⟩

theorem tay : Statement .tay := ⟨rfl, rfl, fun _ => rfl⟩

theorem txa : Statement .txa := ⟨rfl, rfl, fun _ => rfl⟩

theorem tya : Statement .tya := ⟨rfl, rfl, fun _ => rfl⟩

theorem tsx : Statement .tsx := ⟨rfl, rfl, fun _ => rfl⟩

theorem txs : Statement .txs := ⟨rfl, rfl, fun _ => rfl⟩

theorem pha : Statement .pha := ⟨rfl, rfl, fun _ => rfl⟩

theorem pla : Statement .pla := ⟨rfl, rfl, fun _ => rfl⟩

theorem adcImm (b : Byte) : Statement (.adcImm b) := ⟨rfl, rfl, fun _ => rfl⟩

theorem adcZp (b : Byte) : Statement (.adcZp b) := ⟨rfl, rfl, fun _ => rfl⟩

theorem adcZpx (b : Byte) : Statement (.adcZpx b) := ⟨rfl, rfl, fun _ => rfl⟩

theorem adcIndx (b : Byte) : Statement (.adcIndx b) := ⟨rfl, rfl, fun _ => rfl⟩

theorem adcIndy (b : Byte) : Statement (.adcIndy b) := ⟨rfl, rfl, fun _ => rfl⟩

theorem adcAbs (lo hi : Byte) : Statement (.adcAbs lo hi) := ⟨rfl, rfl, fun _ => rfl⟩

theorem adcAbsy (lo hi : Byte) : Statement (.adcAbsy lo hi) := ⟨rfl, rfl, fun _ => rfl⟩

theorem sbcImm (b : Byte) : Statement (.sbcImm b) := ⟨rfl, rfl, fun _ => rfl⟩

theorem sbcZp (b : Byte) : Statement (.sbcZp b) := ⟨rfl, rfl, fun _ => rfl⟩

theorem sbcZpx (b : Byte) : Statement (.sbcZpx b) := ⟨rfl, rfl, fun _ => rfl⟩

theorem sbcIndx (b : Byte) : Statement (.sbcIndx b) := ⟨rfl, rfl, fun _ => rfl⟩

theorem sbcIndy (b : Byte) : Statement (.sbcIndy b) := ⟨rfl, rfl, fun _ => rfl⟩

theorem sbcAbs (lo hi : Byte) : Statement (.sbcAbs lo hi) := ⟨rfl, rfl, fun _ => rfl⟩

theorem sbcAbsy (lo hi : Byte) : Statement (.sbcAbsy lo hi) := ⟨rfl, rfl, fun _ => rfl⟩

theorem andImm (b : Byte) : Statement (.andImm b) := ⟨rfl, rfl, fun _ => rfl⟩

theorem andZp (b : Byte) : Statement (.andZp b) := ⟨rfl, rfl, fun _ => rfl⟩

theorem andZpx (b : Byte) : Statement (.andZpx b) := ⟨rfl, rfl, fun _ => rfl⟩

theorem andIndx (b : Byte) : Statement (.andIndx b) := ⟨rfl, rfl, fun _ => rfl⟩

theorem andIndy (b : Byte) : Statement (.andIndy b) := ⟨rfl, rfl, fun _ => rfl⟩

theorem andAbs (lo hi : Byte) : Statement (.andAbs lo hi) := ⟨rfl, rfl, fun _ => rfl⟩

theorem andAbsy (lo hi : Byte) : Statement (.andAbsy lo hi) := ⟨rfl, rfl, fun _ => rfl⟩

theorem oraImm (b : Byte) : Statement (.oraImm b) := ⟨rfl, rfl, fun _ => rfl⟩

theorem oraZp (b : Byte) : Statement (.oraZp b) := ⟨rfl, rfl, fun _ => rfl⟩

theorem oraZpx (b : Byte) : Statement (.oraZpx b) := ⟨rfl, rfl, fun _ => rfl⟩

theorem oraIndx (b : Byte) : Statement (.oraIndx b) := ⟨rfl, rfl, fun _ => rfl⟩

theorem oraIndy (b : Byte) : Statement (.oraIndy b) := ⟨rfl, rfl, fun _ => rfl⟩

theorem oraAbs (lo hi : Byte) : Statement (.oraAbs lo hi) := ⟨rfl, rfl, fun _ => rfl⟩

theorem oraAbsy (lo hi : Byte) : Statement (.oraAbsy lo hi) := ⟨rfl, rfl, fun _ => rfl⟩

theorem eorImm (b : Byte) : Statement (.eorImm b) := ⟨rfl, rfl, fun _ => rfl⟩

theorem eorZp (b : Byte) : Statement (.eorZp b) := ⟨rfl, rfl, fun _ => rfl⟩

theorem eorZpx (b : Byte) : Statement (.eorZpx b) := ⟨rfl, rfl, fun _ => rfl⟩

theorem eorIndx (b : Byte) : Statement (.eorIndx b) := ⟨rfl, rfl, fun _ => rfl⟩

theorem eorIndy (b : Byte) : Statement (.eorIndy b) := ⟨rfl, rfl, fun _ => rfl⟩

theorem eorAbs (lo hi : Byte) : Statement (.eorAbs lo hi) := ⟨rfl, rfl, fun _ => rfl⟩

theorem eorAbsy (lo hi : Byte) : Statement (.eorAbsy lo hi) := ⟨rfl, rfl, fun _ => rfl⟩

theorem cmpImm (b : Byte) : Statement (.cmpImm b) := ⟨rfl, rfl, fun _ => rfl⟩

theorem cmpZp (b : Byte) : Statement (.cmpZp b) := ⟨rfl, rfl, fun _ => rfl⟩

theorem cmpZpx (b : Byte) : Statement (.cmpZpx b) := ⟨rfl, rfl, fun _ => rfl⟩

theorem cmpIndx (b : Byte) : Statement (.cmpIndx b) := ⟨rfl, rfl, fun _ => rfl⟩

theorem cmpIndy (b : Byte) : Statement (.cmpIndy b) := ⟨rfl, rfl, fun _ => rfl⟩

theorem cmpAbs (lo hi : Byte) : Statement (.cmpAbs lo hi) := ⟨rfl, rfl, fun _ => rfl⟩

theorem cmpAbsy (lo hi : Byte) : Statement (.cmpAbsy lo hi) := ⟨rfl, rfl, fun _ => rfl⟩

theorem cpxImm (b : Byte) : Statement (.cpxImm b) := ⟨rfl, rfl, fun _ => rfl⟩

theorem cpxZp (b : Byte) : Statement (.cpxZp b) := ⟨rfl, rfl, fun _ => rfl⟩

theorem cpxAbs (lo hi : Byte) : Statement (.cpxAbs lo hi) := ⟨rfl, rfl, fun _ => rfl⟩

theorem cpyImm (b : Byte) : Statement (.cpyImm b) := ⟨rfl, rfl, fun _ => rfl⟩

theorem cpyZp (b : Byte) : Statement (.cpyZp b) := ⟨rfl, rfl, fun _ => rfl⟩

theorem cpyAbs (lo hi : Byte) : Statement (.cpyAbs lo hi) := ⟨rfl, rfl, fun _ => rfl⟩

theorem bitZp (b : Byte) : Statement (.bitZp b) := ⟨rfl, rfl, fun _ => rfl⟩

theorem bitAbs (lo hi : Byte) : Statement (.bitAbs lo hi) := ⟨rfl, rfl, fun _ => rfl⟩

theorem incZp (b : Byte) : Statement (.incZp b) := ⟨rfl, rfl, fun _ => rfl⟩

theorem incZpx (b : Byte) : Statement (.incZpx b) := ⟨rfl, rfl, fun _ => rfl⟩

theorem incAbs (lo hi : Byte) : Statement (.incAbs lo hi) := ⟨rfl, rfl, fun _ => rfl⟩

theorem decZp (b : Byte) : Statement (.decZp b) := ⟨rfl, rfl, fun _ => rfl⟩

theorem decZpx (b : Byte) : Statement (.decZpx b) := ⟨rfl, rfl, fun _ => rfl⟩

theorem decAbs (lo hi : Byte) : Statement (.decAbs lo hi) := ⟨rfl, rfl, fun _ => rfl⟩

theorem inx : Statement .inx := ⟨rfl, rfl, fun _ => rfl⟩

theorem iny : Statement .iny := ⟨rfl, rfl, fun _ => rfl⟩

theorem dex : Statement .dex := ⟨rfl, rfl, fun _ => rfl⟩

theorem dey : Statement .dey := ⟨rfl, rfl, fun _ => rfl⟩

theorem aslAcc : Statement .aslAcc := ⟨rfl, rfl, fun _ => rfl⟩

theorem aslZp (b : Byte) : Statement (.aslZp b) := ⟨rfl, rfl, fun _ => rfl⟩

theorem aslZpx (b : Byte) : Statement (.aslZpx b) := ⟨rfl, rfl, fun _ => rfl⟩

theorem aslAbs (lo hi : Byte) : Statement (.aslAbs lo hi) := ⟨rfl, rfl, fun _ => rfl⟩

theorem lsrAcc : Statement .lsrAcc := ⟨rfl, rfl, fun _ => rfl⟩

theorem lsrZp (b : Byte) : Statement (.lsrZp b) := ⟨rfl, rfl, fun _ => rfl⟩

theorem lsrZpx (b : Byte) : Statement (.lsrZpx b) := ⟨rfl, rfl, fun _ => rfl⟩

theorem lsrAbs (lo hi : Byte) : Statement (.lsrAbs lo hi) := ⟨rfl, rfl, fun _ => rfl⟩

theorem rolAcc : Statement .rolAcc := ⟨rfl, rfl, fun _ => rfl⟩

theorem rolZp (b : Byte) : Statement (.rolZp b) := ⟨rfl, rfl, fun _ => rfl⟩

theorem rolZpx (b : Byte) : Statement (.rolZpx b) := ⟨rfl, rfl, fun _ => rfl⟩

theorem rolAbs (lo hi : Byte) : Statement (.rolAbs lo hi) := ⟨rfl, rfl, fun _ => rfl⟩

theorem rorAcc : Statement .rorAcc := ⟨rfl, rfl, fun _ => rfl⟩

theorem rorZp (b : Byte) : Statement (.rorZp b) := ⟨rfl, rfl, fun _ => rfl⟩

theorem rorZpx (b : Byte) : Statement (.rorZpx b) := ⟨rfl, rfl, fun _ => rfl⟩

theorem rorAbs (lo hi : Byte) : Statement (.rorAbs lo hi) := ⟨rfl, rfl, fun _ => rfl⟩

theorem jmp (lo hi : Byte) : Statement (.jmp lo hi) := ⟨rfl, rfl, fun _ => rfl⟩

theorem jsr (lo hi : Byte) : Statement (.jsr lo hi) := ⟨rfl, rfl, fun _ => rfl⟩

theorem rts : Statement .rts := ⟨rfl, rfl, fun _ => rfl⟩

theorem bpl (o : Byte) : Statement (.bpl o) := ⟨rfl, rfl, fun _ => rfl⟩

theorem bmi (o : Byte) : Statement (.bmi o) := ⟨rfl, rfl, fun _ => rfl⟩

theorem bcc (o : Byte) : Statement (.bcc o) := ⟨rfl, rfl, fun _ => rfl⟩

theorem bcs (o : Byte) : Statement (.bcs o) := ⟨rfl, rfl, fun _ => rfl⟩

theorem bne (o : Byte) : Statement (.bne o) := ⟨rfl, rfl, fun _ => rfl⟩

theorem beq (o : Byte) : Statement (.beq o) := ⟨rfl, rfl, fun _ => rfl⟩

theorem clc : Statement .clc := ⟨rfl, rfl, fun _ => rfl⟩

theorem sec : Statement .sec := ⟨rfl, rfl, fun _ => rfl⟩

theorem nop : Statement .nop := ⟨rfl, rfl, fun _ => rfl⟩

theorem brk : Statement .brk := ⟨rfl, rfl, fun _ => rfl⟩

end Sys2Proof.Laws.Encoding
end

