-- ==== Sys2Proof/Laws/Step.lean ====
section
/-! SUPPORT. What a fetch and a step can do, said once: under a well-formed configuration a step from RUNNING either fetches
an instruction the table has an entry for and executes it, or takes the UnknownOpcode exception. -/

namespace Sys2Proof.Machine

/-- Every meaning completes (60_exceptions.md rule R151: no instruction faults once it is decoded). -/
theorem exec_next (i : Instr) (s : State) : ∃ t, exec i s = .next t := by
  cases i <;> exact ⟨_, rfl⟩

/-- A fetch of an opcode with no entry: one fetch and the error that names it. -/
theorem fetchInstr_unknown (s : State) (h : lookup s.cfg.table (fetch s).1 = none) :
    fetchInstr s = (.error (.unknownOpcode (fetch s).1), (fetch s).2) := by
  simp [fetchInstr, h]

/-- A fetch of an opcode with an entry: the instruction of the fetched bytes, and the state after exactly its bytes. -/
theorem fetchInstr_known (s : State) (d : Descriptor) (hw : s.cfg.wf = true) (h : lookup s.cfg.table (fetch s).1 = some d) :
    ∃ i : Instr, i.desc = d ∧ i.operands = (fetchBytes d.mode.operandBytes (fetch s).2).1 ∧
      fetchInstr s = (.ok i, (s.note (fetchEvents i.length s.pc)).setPc (s.pc + BitVec.ofNat 16 i.length)) := by
  obtain ⟨b0, b1, ht⟩ := takeOperands_exact d.mode _ (fetchBytes_length d.mode.operandBytes (fetch s).2)
  have hadm := lookup_admitted (Config.table_wf hw) h
  have hsome : (Instr.build d.mnemonic d.mode b0 b1).isSome = true := by rw [Instr.build_isSome]; exact hadm
  obtain ⟨i, hi⟩ := Option.isSome_iff_exists.mp hsome
  have hdesc := Instr.build_desc hi
  have hops := Instr.build_operands ht hi
  refine ⟨i, hdesc, by simpa using hops.symm, ?_⟩
  have hst : (fetchBytes d.mode.operandBytes (fetch s).2).2 = (fetchBytes i.length s).2 := by
    simp [Instr.length, Mode.length, hdesc, fetchBytes, Nat.add_comm 1]
  have hdec : decode s.cfg.table ((fetch s).1 :: (fetchBytes d.mode.operandBytes (fetch s).2).1) = .ok (i, []) := by
    simp [decode, h, ht, hi]
  simp only [fetchInstr, h, hdec, hst, fetchBytes_state]
  rfl

/-- What a step from RUNNING can do under a well-formed configuration. -/
theorem step_cases (s : State) (hr : s.runState = .running) (hw : s.cfg.wf = true) :
    (lookup s.cfg.table (fetch s).1 = none ∧ step s = .next (raiseUnknownOpcode (fetch s).1 (fetch s).2)) ∨
    (∃ i : Instr, lookup s.cfg.table (fetch s).1 = some i.desc ∧
      i.operands = (fetchBytes i.desc.mode.operandBytes (fetch s).2).1 ∧
      step s = exec i ((s.note (fetchEvents i.length s.pc)).setPc (s.pc + BitVec.ofNat 16 i.length))) := by
  cases hl : lookup s.cfg.table (fetch s).1 with
  | none => exact .inl ⟨rfl, by simp [step, hr, hw, fetchInstr_unknown s hl]⟩
  | some d =>
    obtain ⟨i, hd, ho, hf⟩ := fetchInstr_known s d hw hl
    refine .inr ⟨i, by rw [hd], by rw [hd]; exact ho, ?_⟩
    simp [step, hr, hw, hf]

end Sys2Proof.Machine
end

