-- ==== Sys2Proof/Tests/Slice0.lean ====
section
/-! SUPPORT. The model's own tests: each configuration check refuses an ill-formed term, words of the spec's encodings decode,
one step gives what the spec's vectors say, and every statement's hypotheses have a witness. -/

namespace Sys2Proof.Tests

open Sys2Proof Sys2Proof.Machine

/-! ### Helpers -/

/-- Decoding under the default table gives exactly this instruction and no byte is left. -/
def decodes (bs : List Byte) (i : Instr) : Bool :=
  match decode defaultTable bs with
  | .ok (j, rest) => j == i && rest == []
  | .error _ => false

/-- The launch state of 95_test_vectors.md section 0, with the instruction's bytes at 0x0600. -/
def launch (bs : List Byte) : State := pokeBytes bs 0x0600 State.reset

/-- Bytes stored from an address on. -/
def put (a : Addr) (bs : List Byte) (s : State) : State := pokeBytes bs a s

/-- The outcome is a next state for which the test holds. -/
def after (o : Host.Outcome State Fault Refusal) (p : State → Bool) : Bool :=
  match o with
  | .next t => p t
  | .fault _ => false
  | .refused _ => false

/-- The outcome is the refusal of an ill-formed configuration. -/
def refusesConfig (o : Host.Outcome State Fault Refusal) : Bool :=
  match o with
  | .next _ => false
  | .fault _ => false
  | .refused r => r == .illFormedConfig

/-! ### Well-formedness: an ill-formed term for each check, which the check refuses -/

/-- The defaults pass every check (00_scope.md R10, R11). -/
theorem test_default_wf : Config.default.wf = true := by decide

/-- One cell for both devices (R11, first item). -/
def sameCells : Config := { Config.default with inputAddr := 0x00FE }

theorem test_wf_cells_differ : sameCells.cellsDiffer = false ∧ sameCells.wf = false := by decide

/-- The random cell at the first, the input cell at the last output cell (R11, second item). -/
def randomInOutput : Config := { Config.default with randomAddr := 0x0200 }
def inputInOutput : Config := { Config.default with inputAddr := 0x05FF }

theorem test_wf_cells_outside_output :
    randomInOutput.cellsOutsideOutput = false ∧ randomInOutput.wf = false ∧
    inputInOutput.cellsOutsideOutput = false ∧ inputInOutput.wf = false ∧
    ({ Config.default with inputAddr := 0x01FF } : Config).wf = true ∧
    ({ Config.default with inputAddr := 0x0600 } : Config).wf = true := by decide

/-- One row past the end of memory (R11, third item), beside an output that ends exactly there. -/
def outputTooHigh : Config := { Config.default with outBase := 0xFC20 }

theorem test_wf_output_fits : outputTooHigh.outputFits = false ∧ outputTooHigh.wf = false ∧
    ({ Config.default with outBase := 0xFC00 } : Config).wf = true := by decide

/-- A last row cut short (R11, fourth item). -/
def brokenRow : Config := { Config.default with outSize := 1023 }

theorem test_wf_whole_rows : brokenRow.wholeRows = false ∧ brokenRow.wf = false := by decide

/-- Each count at 0 (R10: integers >= 1). -/
theorem test_wf_counts_positive :
    ({ Config.default with outSize := 0 } : Config).countsPositive = false ∧
    ({ Config.default with outWidth := 0 } : Config).countsPositive = false ∧
    ({ Config.default with paletteSize := 0 } : Config).countsPositive = false := by decide

/-- Two descriptors for one opcode (30_encoding.md R70), and two rows out of the order of log entry 11. -/
theorem test_wf_table_rising :
    OpcodeTable.rising [row 0xEA .nop .imp, row 0xEA .clc .imp] = false ∧
    OpcodeTable.wf [row 0xEA .nop .imp, row 0x18 .clc .imp] = false := by decide

/-- A pair that rule R71 does not list: LDA with the relative mode. -/
theorem test_wf_table_admitted :
    Descriptor.admitted ⟨.lda, .rel⟩ = false ∧ OpcodeTable.wf [row 0xA9 .lda .rel] = false := by decide

/-- An instruction whose pair a table has no entry for. -/
theorem test_wf_instr : Instr.wf [row 0xEA .nop .imp] (.ldaImm 0x05) = false ∧
    Instr.wf defaultTable (.ldaImm 0x05) = true := by decide

/-- The step refuses a configuration that fails a check, and a table that fails its check (log entry 10). -/
theorem test_step_refuses_ill_formed :
    refusesConfig (step { State.reset with cfg := sameCells }) = true ∧
    refusesConfig (step { State.reset with cfg := { Config.default with table := [row 0x00 .lda .rel] } }) = true := by
  decide


/-! ### Decoding: words written out from the spec's encoding lines, every constructor once -/

/-- The encoding lines of 41_load_store_transfer.md R99 to R101: opcode byte, then the operand bytes, low byte first. -/
theorem test_decode_loads : (
    decodes [0xA1, 0x37] (.ldaIndx 0x37) && decodes [0xA5, 0x37] (.ldaZp 0x37) &&
    decodes [0xA9, 0x37] (.ldaImm 0x37) && decodes [0xAD, 0x37, 0x13] (.ldaAbs 0x37 0x13) &&
    decodes [0xB1, 0x37] (.ldaIndy 0x37) && decodes [0xB5, 0x37] (.ldaZpx 0x37) &&
    decodes [0xB9, 0x37, 0x13] (.ldaAbsy 0x37 0x13) && decodes [0xA2, 0x37] (.ldxImm 0x37) &&
    decodes [0xA6, 0x37] (.ldxZp 0x37) && decodes [0xAE, 0x37, 0x13] (.ldxAbs 0x37 0x13) &&
    decodes [0xBE, 0x37, 0x13] (.ldxAbsy 0x37 0x13) && decodes [0xA0, 0x37] (.ldyImm 0x37) &&
    decodes [0xA4, 0x37] (.ldyZp 0x37) && decodes [0xAC, 0x37, 0x13] (.ldyAbs 0x37 0x13) &&
    decodes [0xB4, 0x37] (.ldyZpx 0x37)) = true := by decide

/-- The encoding lines of 41_load_store_transfer.md R102 to R104: opcode byte, then the operand bytes, low byte first. -/
theorem test_decode_stores : (
    decodes [0x81, 0x37] (.staIndx 0x37) && decodes [0x85, 0x37] (.staZp 0x37) &&
    decodes [0x8D, 0x37, 0x13] (.staAbs 0x37 0x13) && decodes [0x91, 0x37] (.staIndy 0x37) &&
    decodes [0x95, 0x37] (.staZpx 0x37) && decodes [0x99, 0x37, 0x13] (.staAbsy 0x37 0x13) &&
    decodes [0x86, 0x37] (.stxZp 0x37) && decodes [0x8E, 0x37, 0x13] (.stxAbs 0x37 0x13) &&
    decodes [0x84, 0x37] (.styZp 0x37) && decodes [0x8C, 0x37, 0x13] (.styAbs 0x37 0x13) &&
    decodes [0x94, 0x37] (.styZpx 0x37)) = true := by decide

/-- The encoding lines of 41_load_store_transfer.md R105 to R112: opcode byte, then the operand bytes, low byte first. -/
theorem test_decode_transfers_and_stack : (
    decodes [0xAA] .tax && decodes [0xA8] .tay && decodes [0x8A] .txa && decodes [0x98] .tya &&
    decodes [0xBA] .tsx && decodes [0x9A] .txs && decodes [0x48] .pha && decodes [0x68] .pla) = true := by decide

/-- The encoding lines of 42_alu.md R115, R116: opcode byte, then the operand bytes, low byte first. -/
theorem test_decode_adc_and_sbc : (
    decodes [0x61, 0x37] (.adcIndx 0x37) && decodes [0x65, 0x37] (.adcZp 0x37) &&
    decodes [0x69, 0x37] (.adcImm 0x37) && decodes [0x6D, 0x37, 0x13] (.adcAbs 0x37 0x13) &&
    decodes [0x71, 0x37] (.adcIndy 0x37) && decodes [0x75, 0x37] (.adcZpx 0x37) &&
    decodes [0x79, 0x37, 0x13] (.adcAbsy 0x37 0x13) && decodes [0xE1, 0x37] (.sbcIndx 0x37) &&
    decodes [0xE5, 0x37] (.sbcZp 0x37) && decodes [0xE9, 0x37] (.sbcImm 0x37) &&
    decodes [0xED, 0x37, 0x13] (.sbcAbs 0x37 0x13) && decodes [0xF1, 0x37] (.sbcIndy 0x37) &&
    decodes [0xF5, 0x37] (.sbcZpx 0x37) && decodes [0xF9, 0x37, 0x13] (.sbcAbsy 0x37 0x13)) = true := by decide

/-- The encoding lines of 42_alu.md R117 to R119: opcode byte, then the operand bytes, low byte first. -/
theorem test_decode_logic : (
    decodes [0x21, 0x37] (.andIndx 0x37) && decodes [0x25, 0x37] (.andZp 0x37) &&
    decodes [0x29, 0x37] (.andImm 0x37) && decodes [0x2D, 0x37, 0x13] (.andAbs 0x37 0x13) &&
    decodes [0x31, 0x37] (.andIndy 0x37) && decodes [0x35, 0x37] (.andZpx 0x37) &&
    decodes [0x39, 0x37, 0x13] (.andAbsy 0x37 0x13) && decodes [0x01, 0x37] (.oraIndx 0x37) &&
    decodes [0x05, 0x37] (.oraZp 0x37) && decodes [0x09, 0x37] (.oraImm 0x37) &&
    decodes [0x0D, 0x37, 0x13] (.oraAbs 0x37 0x13) && decodes [0x11, 0x37] (.oraIndy 0x37) &&
    decodes [0x15, 0x37] (.oraZpx 0x37) && decodes [0x19, 0x37, 0x13] (.oraAbsy 0x37 0x13) &&
    decodes [0x41, 0x37] (.eorIndx 0x37) && decodes [0x45, 0x37] (.eorZp 0x37) &&
    decodes [0x49, 0x37] (.eorImm 0x37) && decodes [0x4D, 0x37, 0x13] (.eorAbs 0x37 0x13) &&
    decodes [0x51, 0x37] (.eorIndy 0x37) && decodes [0x55, 0x37] (.eorZpx 0x37) &&
    decodes [0x59, 0x37, 0x13] (.eorAbsy 0x37 0x13)) = true := by decide

/-- The encoding lines of 42_alu.md R121 to R124: opcode byte, then the operand bytes, low byte first. -/
theorem test_decode_compares_and_bit : (
    decodes [0xC1, 0x37] (.cmpIndx 0x37) && decodes [0xC5, 0x37] (.cmpZp 0x37) &&
    decodes [0xC9, 0x37] (.cmpImm 0x37) && decodes [0xCD, 0x37, 0x13] (.cmpAbs 0x37 0x13) &&
    decodes [0xD1, 0x37] (.cmpIndy 0x37) && decodes [0xD5, 0x37] (.cmpZpx 0x37) &&
    decodes [0xD9, 0x37, 0x13] (.cmpAbsy 0x37 0x13) && decodes [0xE0, 0x37] (.cpxImm 0x37) &&
    decodes [0xE4, 0x37] (.cpxZp 0x37) && decodes [0xEC, 0x37, 0x13] (.cpxAbs 0x37 0x13) &&
    decodes [0xC0, 0x37] (.cpyImm 0x37) && decodes [0xC4, 0x37] (.cpyZp 0x37) &&
    decodes [0xCC, 0x37, 0x13] (.cpyAbs 0x37 0x13) && decodes [0x24, 0x37] (.bitZp 0x37) &&
    decodes [0x2C, 0x37, 0x13] (.bitAbs 0x37 0x13)) = true := by decide

/-- The encoding lines of 42_alu.md R125 to R130: opcode byte, then the operand bytes, low byte first. -/
theorem test_decode_increments : (
    decodes [0xE6, 0x37] (.incZp 0x37) && decodes [0xEE, 0x37, 0x13] (.incAbs 0x37 0x13) &&
    decodes [0xF6, 0x37] (.incZpx 0x37) && decodes [0xC6, 0x37] (.decZp 0x37) &&
    decodes [0xCE, 0x37, 0x13] (.decAbs 0x37 0x13) && decodes [0xD6, 0x37] (.decZpx 0x37) && decodes [0xE8] .inx &&
    decodes [0xC8] .iny && decodes [0xCA] .dex && decodes [0x88] .dey) = true := by decide

/-- The encoding lines of 42_alu.md R132 to R135: opcode byte, then the operand bytes, low byte first. -/
theorem test_decode_shifts : (
    decodes [0x06, 0x37] (.aslZp 0x37) && decodes [0x0A] .aslAcc &&
    decodes [0x0E, 0x37, 0x13] (.aslAbs 0x37 0x13) && decodes [0x16, 0x37] (.aslZpx 0x37) &&
    decodes [0x46, 0x37] (.lsrZp 0x37) && decodes [0x4A] .lsrAcc &&
    decodes [0x4E, 0x37, 0x13] (.lsrAbs 0x37 0x13) && decodes [0x56, 0x37] (.lsrZpx 0x37) &&
    decodes [0x26, 0x37] (.rolZp 0x37) && decodes [0x2A] .rolAcc &&
    decodes [0x2E, 0x37, 0x13] (.rolAbs 0x37 0x13) && decodes [0x36, 0x37] (.rolZpx 0x37) &&
    decodes [0x66, 0x37] (.rorZp 0x37) && decodes [0x6A] .rorAcc &&
    decodes [0x6E, 0x37, 0x13] (.rorAbs 0x37 0x13) && decodes [0x76, 0x37] (.rorZpx 0x37)) = true := by decide

/-- The encoding lines of 43_control.md R136 to R149: opcode byte, then the operand bytes, low byte first. -/
theorem test_decode_control : (
    decodes [0x4C, 0x37, 0x13] (.jmp 0x37 0x13) && decodes [0x20, 0x37, 0x13] (.jsr 0x37 0x13) &&
    decodes [0x60] .rts && decodes [0x10, 0x37] (.bpl 0x37) && decodes [0x30, 0x37] (.bmi 0x37) &&
    decodes [0x90, 0x37] (.bcc 0x37) && decodes [0xB0, 0x37] (.bcs 0x37) && decodes [0xD0, 0x37] (.bne 0x37) &&
    decodes [0xF0, 0x37] (.beq 0x37) && decodes [0x18] .clc && decodes [0x38] .sec && decodes [0xEA] .nop &&
    decodes [0x00] .brk) = true := by decide

/-! ### One step each, expected results from 95_test_vectors.md -/

/-- 95_test_vectors.md A1. -/
theorem test_lda_imm_zero : after (step { launch [0xA9, 0x00] with a := 5 })
    (fun t => t.a == 0x00 && t.z && !t.n && t.pc == 0x0602) = true := by decide

/-- 95_test_vectors.md A4. -/
theorem test_lda_indx_pointer_wraps :
    after (step { put 0x0700 [0x5A] (put 0x0002 [0x00, 0x07] (launch [0xA1, 0xF8])) with x := 0x0A })
    (fun t => t.a == 0x5A &&
      t.trace == [.read 0x0600, .read 0x0601, .read 0x0002, .read 0x0003, .read 0x0700]) = true := by decide

/-- 95_test_vectors.md A11. -/
theorem test_ldx_absy : after (step { put 0x0305 [0x01] (launch [0xBE, 0x00, 0x03]) with y := 5 })
    (fun t => t.x == 0x01 && t.pc == 0x0603) = true := by decide

/-- 95_test_vectors.md S6. -/
theorem test_ldy_zpx : after (step { put 0x0015 [0xFE] (launch [0xB4, 0x10]) with x := 5 })
    (fun t => t.y == 0xFE && t.n && t.trace == [.read 0x0600, .read 0x0601, .read 0x0015]) = true := by decide

/-- 95_test_vectors.md A2. -/
theorem test_lda_zpx_wraps : after (step { put 0x0010 [0x99] (launch [0xB5, 0xF0]) with x := 0x20 })
    (fun t => t.a == 0x99 && t.n) = true := by decide

/-- 95_test_vectors.md T5. -/
theorem test_sta_indy_emits_a_pixel :
    after (step { put 0x0010 [0x00, 0x02] (launch [0x91, 0x10]) with a := 0x0A, y := 3 })
    (fun t => t.peek 0x0203 == 0x0A && pixelEvents t == [.pixel 3 0 10]) = true := by decide

/-- 95_test_vectors.md T8. -/
theorem test_sta_last_output_cell : after (step { launch [0x8D, 0xFF, 0x05] with a := 0x1F })
    (fun t => t.peek 0x05FF == 0x1F && pixelEvents t == [.pixel 31 31 15]) = true := by decide

/-- 95_test_vectors.md T9. -/
theorem test_sta_past_the_output : after (step { launch [0x8D, 0x00, 0x06] with a := 0x1F })
    (fun t => t.peek 0x0600 == 0x1F && pixelEvents t == []) = true := by decide

/-- 95_test_vectors.md T6. -/
theorem test_stx_first_output_cell : after (step { launch [0x8E, 0x00, 0x02] with x := 3 })
    (fun t => t.peek 0x0200 == 0x03 && pixelEvents t == [.pixel 0 0 3]) = true := by decide

/-- 95_test_vectors.md T7. -/
theorem test_sty_zpx : after (step { launch [0x94, 0x10] with x := 2, y := 0x7F })
    (fun t => t.peek 0x0012 == 0x7F) = true := by decide

/-- 95_test_vectors.md T10. -/
theorem test_tax : after (step { launch [0xAA] with a := 0x80 })
    (fun t => t.x == 0x80 && !t.z && t.n) = true := by decide

/-- 95_test_vectors.md T11. -/
theorem test_tay : after (step { launch [0xA8] with y := 9 })
    (fun t => t.y == 0x00 && t.z && !t.n) = true := by decide

/-- 95_test_vectors.md T12. -/
theorem test_txa : after (step { launch [0x8A] with x := 3 })
    (fun t => t.a == 0x03 && !t.z && !t.n) = true := by decide

/-- 95_test_vectors.md T13. -/
theorem test_tya : after (step { launch [0x98] with y := 0xFF })
    (fun t => t.a == 0xFF && t.n) = true := by decide

/-- 95_test_vectors.md T15. -/
theorem test_tsx : after (step { launch [0xBA] with sp := 0xFD })
    (fun t => t.x == 0xFD && t.n) = true := by decide

/-- 95_test_vectors.md T16. -/
theorem test_txs_writes_no_flag : after (step (launch [0x9A]))
    (fun t => t.sp == 0x00 && !t.z && !t.n) = true := by decide

/-- 95_test_vectors.md T18. -/
theorem test_pha_wraps : after (step { launch [0x48] with a := 0x42, sp := 0 })
    (fun t => t.sp == 0xFF && t.peek 0x01FF == 0x42) = true := by decide

/-- 95_test_vectors.md T20. -/
theorem test_pla_wraps : after (step (put 0x01FF [0x80] (launch [0x68])))
    (fun t => t.a == 0x80 && t.sp == 0x00 && t.n) = true := by decide

/-- 95_test_vectors.md L2. -/
theorem test_adc_carries : after (step { launch [0x69, 0x01] with a := 0xFF })
    (fun t => t.a == 0x00 && t.c && t.z && !t.n) = true := by decide

/-- 95_test_vectors.md L4. -/
theorem test_adc_takes_the_carry : after (step { launch [0x69, 0x00] with a := 0x7F, c := true })
    (fun t => t.a == 0x80 && !t.c && t.n) = true := by decide

/-- 95_test_vectors.md L10. -/
theorem test_sbc_borrows : after (step (launch [0xE9, 0x00]))
    (fun t => t.a == 0xFF && !t.c && t.n) = true := by decide

/-- 95_test_vectors.md L12. -/
theorem test_sbc_no_borrow : after (step { launch [0xE9, 0xFF] with a := 0xFF, c := true })
    (fun t => t.a == 0x00 && t.c && t.z) = true := by decide

/-- 95_test_vectors.md L13. -/
theorem test_and_keeps_carry : after (step { launch [0x29, 0x1F] with a := 0x3F, c := true })
    (fun t => t.a == 0x1F && t.c && !t.z && !t.n) = true := by decide

/-- 95_test_vectors.md L15. -/
theorem test_ora : after (step { launch [0x09, 0x80] with a := 0x0F })
    (fun t => t.a == 0x8F && t.n) = true := by decide

/-- 95_test_vectors.md L16. -/
theorem test_eor : after (step { launch [0x49, 0xFF] with a := 0xFF })
    (fun t => t.a == 0x00 && t.z) = true := by decide

/-- 95_test_vectors.md L18. -/
theorem test_cmp_less : after (step { launch [0xC9, 0x02] with a := 1 })
    (fun t => !t.c && !t.z && t.n && t.a == 0x01) = true := by decide

/-- 95_test_vectors.md L20. -/
theorem test_cmp_unsigned : after (step (launch [0xC9, 0xFF]))
    (fun t => !t.c && !t.z && !t.n) = true := by decide

/-- 95_test_vectors.md L21. -/
theorem test_cpx : after (step { launch [0xE0, 0x05] with x := 4 })
    (fun t => !t.c && !t.z && t.n) = true := by decide

/-- 95_test_vectors.md L22. -/
theorem test_cpy : after (step { launch [0xC0, 0x05] with y := 6 })
    (fun t => t.c && !t.z && !t.n) = true := by decide

/-- 95_test_vectors.md L23. -/
theorem test_bit_z_and_n_apart : after (step { put 0x0010 [0xC0] (launch [0x24, 0x10]) with a := 1 })
    (fun t => t.z && t.n && !t.c && t.a == 0x01) = true := by decide

/-- 95_test_vectors.md L25. -/
theorem test_inc_wraps : after (step { put 0x0010 [0xFF] (launch [0xE6, 0x10]) with c := true })
    (fun t => t.peek 0x0010 == 0x00 && t.z && t.c &&
      t.trace == [.read 0x0600, .read 0x0601, .read 0x0010, .write 0x0010 0x00]) = true := by decide

/-- 95_test_vectors.md L26. -/
theorem test_dec_wraps : after (step (launch [0xC6, 0x10]))
    (fun t => t.peek 0x0010 == 0xFF && t.n) = true := by decide

/-- 95_test_vectors.md L27. -/
theorem test_inx : after (step { launch [0xE8] with x := 0xFF })
    (fun t => t.x == 0x00 && t.z) = true := by decide

/-- 95_test_vectors.md L29. -/
theorem test_iny : after (step { launch [0xC8] with y := 0x7F })
    (fun t => t.y == 0x80 && t.n) = true := by decide

/-- 95_test_vectors.md L28. -/
theorem test_dex : after (step (launch [0xCA]))
    (fun t => t.x == 0xFF && t.n) = true := by decide

/-- 95_test_vectors.md L30. -/
theorem test_dey : after (step { launch [0x88] with y := 1 })
    (fun t => t.y == 0x00 && t.z) = true := by decide

/-- 95_test_vectors.md L31. -/
theorem test_asl_acc : after (step { launch [0x0A] with a := 0x81 })
    (fun t => t.a == 0x02 && t.c) = true := by decide

/-- 95_test_vectors.md L38. -/
theorem test_asl_abs_emits_one_pixel : after (step (put 0x0200 [0x41] (launch [0x0E, 0x00, 0x02])))
    (fun t => t.peek 0x0200 == 0x82 && !t.c && t.n && pixelEvents t == [.pixel 0 0 2]) = true := by decide

/-- 95_test_vectors.md L33. -/
theorem test_lsr_acc : after (step { launch [0x4A] with a := 1 })
    (fun t => t.a == 0x00 && t.c && t.z) = true := by decide

/-- 95_test_vectors.md L34. -/
theorem test_rol_acc : after (step { launch [0x2A] with a := 0x80, c := true })
    (fun t => t.a == 0x01 && t.c) = true := by decide

/-- 95_test_vectors.md L36. -/
theorem test_ror_acc : after (step { launch [0x6A] with a := 1, c := true })
    (fun t => t.a == 0x80 && t.c && t.n) = true := by decide

/-- 95_test_vectors.md L37. -/
theorem test_ror_zp : after (step (put 0x0010 [0x01] (launch [0x66, 0x10])))
    (fun t => t.peek 0x0010 == 0x00 && t.c && t.z) = true := by decide

/-- 95_test_vectors.md K1. -/
theorem test_jmp_reads_nothing_there : after (step (launch [0x4C, 0x37, 0x13]))
    (fun t => t.pc == 0x1337 && t.trace == [.read 0x0600, .read 0x0601, .read 0x0602]) = true := by decide

/-- 95_test_vectors.md K2. -/
theorem test_jsr : after (step (launch [0x20, 0x10, 0x06]))
    (fun t => t.pc == 0x0610 && t.sp == 0xFD &&
      t.trace == [.read 0x0600, .read 0x0601, .read 0x0602, .write 0x01FE 0x06, .write 0x01FD 0x03]) = true := by decide

/-- 95_test_vectors.md K5. -/
theorem test_rts_unmatched_wraps : after (step (put 0x0100 [0x12] (put 0x01FF [0x34] (launch [0x60]))))
    (fun t => t.pc == 0x1234 && t.sp == 0x01) = true := by decide

/-- 95_test_vectors.md K6. -/
theorem test_bne_taken_backwards : after (step (launch [0xD0, 0xFA]))
    (fun t => t.pc == 0x05FC) = true := by decide

/-- 95_test_vectors.md K7. -/
theorem test_bne_not_taken : after (step { launch [0xD0, 0xFA] with z := true })
    (fun t => t.pc == 0x0602) = true := by decide

/-- 95_test_vectors.md K8. -/
theorem test_beq_to_itself : after (step { launch [0xF0, 0xFE] with z := true })
    (fun t => t.pc == 0x0600) = true := by decide

/-- 95_test_vectors.md K10. -/
theorem test_bcc : after (step (launch [0x90, 0x04]))
    (fun t => t.pc == 0x0606) = true := by decide

/-- 95_test_vectors.md K12. -/
theorem test_bcs : after (step { launch [0xB0, 0x80] with c := true })
    (fun t => t.pc == 0x0582) = true := by decide

/-- 95_test_vectors.md A14. -/
theorem test_bpl : after (step (launch [0x10, 0x7F]))
    (fun t => t.pc == 0x0681) = true := by decide

/-- 95_test_vectors.md A13. -/
theorem test_bmi : after (step { launch [0x30, 0x80] with n := true })
    (fun t => t.pc == 0x0582) = true := by decide

/-- 95_test_vectors.md K15. -/
theorem test_clc : after (step { launch [0x18] with c := true, z := true, n := true })
    (fun t => !t.c && t.z && t.n) = true := by decide

/-- 95_test_vectors.md K16. -/
theorem test_sec : after (step (launch [0x38]))
    (fun t => t.c) = true := by decide

/-- 95_test_vectors.md K17. -/
theorem test_nop : after (step (launch [0xEA]))
    (fun t => t.pc == 0x0601 && t.trace == [.read 0x0600]) = true := by decide

/-- 95_test_vectors.md K18. -/
theorem test_brk_halts : after (step { launch [0x00] with a := 7 })
    (fun t => t.runState == .halted && t.pc == 0x0601 && t.sp == 0xFF && t.trace == [.read 0x0600]) = true := by decide

/-- 95_test_vectors.md F2. -/
theorem test_unknown_opcode : after (step (launch [0x6C, 0x00, 0x03]))
    (fun t => t.runState == .faulted && t.fault == some ⟨0x6C, 0x0601⟩ && t.pc == 0x0601 &&
      t.trace == [.read 0x0600]) = true := by decide

/-- 95_test_vectors.md M2. -/
theorem test_input_cell : after (step { launch [0xAD, 0xFF, 0x00] with input := 0x26 })
    (fun t => t.a == 0x26) = true := by decide

/-- 95_test_vectors.md M4. -/
theorem test_input_cell_written : after (step { launch [0x85, 0xFF] with a := 0x11, input := 0x26 })
    (fun t => inspectMem t 0x00FF == 0x11 && (busRead 0x00FF t).1 == 0x26) = true := by decide

/-- 95_test_vectors.md A6: with ZP_PTR_WRAP = false the pointer's high byte of `A1 FF` comes from 0x0100. -/
theorem test_pointer_not_wrapped : after (step { put 0x0100 [0x04] (put 0x00FF [0x00] (put 0x0400 [0xBB]
    (launch [0xA1, 0xFF]))) with cfg := { Config.default with zpPtrWrap := false }, input := 0x00 })
    (fun t => t.a == 0xBB && t.trace == [.read 0x0600, .read 0x0601, .read 0x00FF, .read 0x0100, .read 0x0400]) = true := by
  decide

/-- 95_test_vectors.md A15: operand bytes and the return address wrap at the top of memory. -/
theorem test_jsr_at_the_top : after (step { put 0xFFFE [0x20, 0x00, 0x07] State.reset with pc := 0xFFFE })
    (fun t => t.pc == 0x0700 && t.peek 0x01FE == 0x00 && t.peek 0x01FD == 0x01) = true := by decide

/-- 95_test_vectors.md M1: a load from the random cell gives the draw, whatever it is; memory keeps its byte. -/
theorem test_random_cell : ∃ t, step (launch [0xA5, 0xFE]) = .next t ∧ t.a = Config.randomByte 0 ∧ t.draws = 1 ∧
    t.peek 0x00FE = 0x00 := ⟨_, rfl, rfl, rfl, rfl⟩

/-- 95_test_vectors.md M6: `load` emits nothing and moves no register. -/
theorem test_load : hostLoad [0x07] 0x0200 State.reset = State.reset.poke 0x0200 0x07 ∧
    (hostLoad [0x07] 0x0200 State.reset).trace = [] := by decide

/-- 95_test_vectors.md S1, 20_memory.md R39: what is set is got; setting 0 takes the cell out again. -/
theorem test_storage : Memory.read (Memory.write [] 0x0010 0xFF) 0x0010 = 0xFF ∧
    Memory.write (Memory.write [] 0x0010 0xFF) 0x0010 0x00 = [] := by decide

/-- The table's word numbering: the first byte is bits 7..0 (spec/opcode_table.json, STA absolute to 0x0200). -/
theorem test_table_word : decodeTableWord 24 0x02008D = some (.staAbs 0x00 0x02) ∧
    decodeTableWord 8 0xA9 = some (.ldaImm 0x00) ∧ decodeTableWord 8 0x02 = none := by decide

/-- A table word placed at PC is what the next step runs. -/
theorem test_fetch_word : after (step (State.reset.withFetchWord 16 0x05A9)) (fun t => t.a == 0x05) = true := by decide

/-! ### Witnesses: each meets the hypotheses of the statement it is named after -/

/-- A small machine about to run LDA #$80. -/
def loading : State := launch [0xA9, 0x80]

/-- The same about to run the halt. -/
def halting : State := launch [0x00]

/-- The same about to fetch a byte with no entry. -/
def faulting : State := launch [0x02]

/-- The result of a step that is a next state. -/
def next (s : State) : State :=
  match step s with
  | .next t => t
  | .fault _ => s
  | .refused _ => s

theorem next_loading : step loading = .next (next loading) := rfl
theorem next_halting : step halting = .next (next halting) := rfl
theorem next_faulting : step faulting = .next (next faulting) := rfl

/-- DecodeOfEncodeUnderAnyTable: a table of its own in which LDA immediate is opcode 0x01, and the default table. -/
theorem witness_decode_of_encode :
    OpcodeTable.wf [row 0x01 .lda .imm, row 0xFF .brk .imp] = true ∧
    Instr.wf [row 0x01 .lda .imm, row 0xFF .brk .imp] (.ldaImm 0xFF) = true ∧
    OpcodeTable.wf defaultTable = true ∧ Instr.wf defaultTable (.ldaAbsy 0xFF 0xFF) = true := by decide

/-- DecodedBytesAreTheEncoding: three bytes and one left over. -/
theorem witness_decoded_bytes : decode defaultTable [0xB9, 0xFF, 0x00, 0x12] = .ok (.ldaAbsy 0xFF 0x00, [0x12]) := rfl

/-- DecodeIsTotal: the table, a byte with an entry and one without. -/
theorem witness_decode_is_total : OpcodeTable.wf defaultTable = true ∧ lookup defaultTable 0xA9 ≠ none ∧
    lookup defaultTable 0xFF = none := by decide

/-- CanonicalMemoriesThatReadAlikeAreEqual: one memory reached by two different histories. -/
theorem witness_canonical_memories :
    let m := Memory.write (Memory.write [] 0xFFFF 0x01) 0x0000 0x02
    let m' := Memory.write (Memory.write (Memory.write [] 0x0000 0x02) 0x0010 0x07) 0xFFFF 0x01
    let m'' := Memory.write m' 0x0010 0x00
    Memory.wf m = true ∧ Memory.wf m'' = true ∧ ∀ a : Addr, Memory.read m a.toNat = Memory.read m'' a.toNat := by
  refine ⟨by decide, by decide, fun a => rfl⟩

/-- CoreReadFollowsTheMemoryMap: the three cases at their cells, and the byte just below the cells. -/
theorem witness_core_read :
    (busRead 0x00FE State.reset).1 = Config.randomByte 0 ∧
    (busRead 0x00FF { State.reset with input := 0x26 }).1 = 0x26 ∧
    (busRead 0x00FD (put 0x00FD [0x11] State.reset)).1 = 0x11 := ⟨rfl, rfl, rfl⟩

/-- CoreWriteStoresAndEmits: the first and last output cells emit, the cells beside them do not. -/
theorem witness_core_write :
    pixelEvents (busWrite 0x0200 0x13 State.reset) = [.pixel 0 0 3] ∧
    pixelEvents (busWrite 0x05FF 0x1F State.reset) = [.pixel 31 31 15] ∧
    pixelEvents (busWrite 0x01FF 0x13 State.reset) = [] ∧
    pixelEvents (busWrite 0x0600 0x13 State.reset) = [] := by decide

/-- CoreWriteStoresAndEmits, last clause: the configuration is well-formed and both ends of the range lie in it. -/
theorem witness_output_read : State.reset.cfg.wf = true ∧ State.reset.cfg.outBase.toNat ≤ (0x0200 : Addr).toNat ∧
    (0x05FF : Addr).toNat < State.reset.cfg.outBase.toNat + State.reset.cfg.outSize := by decide

/-- DeviceCellBytesNeverLeak: two machines that differ in both device bytes, one of which steps. -/
theorem witness_device_cell_bytes :
    SameButDeviceBytes loading (put 0x00FE [0x55, 0xAA] loading) ∧ step loading = .next (next loading) := by
  refine ⟨⟨rfl, fun a h1 h2 => ?_⟩, rfl⟩
  have e : ∀ s : State, put 0x00FE [0x55, 0xAA] s = (s.poke 0x00FE 0x55).poke 0x00FF 0xAA := fun _ => rfl
  rw [e, State.poke_peek, State.poke_peek, if_neg, if_neg]
  · exact h1
  · exact h2

/-- EveryRegisterWriteSetsZeroAndNegative: two registers that differ, and an instruction that changes one. -/
theorem witness_register_write : Reg.x ≠ .a ∧ exec (.ldaImm 0x80) loading = .next (loadReg .a (.imm 0x80) loading) ∧
    (loadReg .a (.imm 0x80) loading).reg .a ≠ loading.reg .a := ⟨by decide, rfl, by decide⟩

/-- StackLaw and NestedCallsReturnToTheOutermost: the default stack window holds no device cell. -/
theorem witness_stack_clear : StackClear State.reset.cfg := by
  intro k
  simp only [State.reset, State.resetWith, Config.default, stackAddr, zext16]
  constructor <;> bv_omega

theorem witness_stack_law : StackClear State.reset.cfg ∧ ([0x01, 0x02, 0x03] : List Byte).length ≤ 256 ∧
    (List.replicate 256 (0x07 : Byte)).length ≤ 256 := ⟨witness_stack_clear, by decide, by rw [List.length_replicate]⟩

theorem witness_nested_calls : StackClear State.reset.cfg ∧
    ([(0x0613, 0x18, 0x06)] : List (Addr × Byte × Byte)).length + 1 ≤ 128 ∧
    (List.replicate 127 ((0x0613, 0x18, 0x06) : Addr × Byte × Byte)).length + 1 ≤ 128 :=
  ⟨witness_stack_clear, by decide, by rw [List.length_replicate]⟩

/-- LoadInstallsTheImage: two bytes over the end of memory; neither lands on the other, and 0x0001 is outside the image. -/
theorem witness_load :
    (∀ k, k < 2 → ∀ j, j < 2 → k < j → (0xFFFF : Addr) + BitVec.ofNat 16 j ≠ 0xFFFF + BitVec.ofNat 16 k) ∧
    (∀ k, k < 2 → (0x0001 : Addr) ≠ 0xFFFF + BitVec.ofNat 16 k) ∧
    (hostLoad [0x01, 0x02] 0xFFFF State.reset).peek 0x0000 = 0x02 := by decide

/-- HostInputAndInspection: a state with a fault record to show and one without. -/
theorem witness_inspection : loading.runState ≠ .faulted ∧ inspectFault (next faulting) = some ⟨0x02, 0x0601⟩ := by
  decide

/-- RunEndsWhereRunningEnds: one step, then halted. -/
theorem witness_run_ends : run 1 halting = .next (next halting) ∧ (next halting).runState ≠ .running := ⟨rfl, by decide⟩

/-- ScheduledRunEndsWhereRunningEnds: the host sets INPUT, then one step halts; a later act is not applied. -/
theorem witness_scheduled_run :
    runSchedule [[.setInput 0x26]] halting = .next (next (hostInput 0x26 halting)) ∧
    (next (hostInput 0x26 halting)).runState ≠ .running ∧
    after (runSchedule [[.setInput 0x26], [.setInput 0x27]] halting) (fun t => t.input == 0x26) = true :=
  ⟨rfl, by decide, by decide⟩

/-- ConfigCheckSaysTheRules, second clause: a well-formed configuration and its first and last rows. -/
theorem witness_table_rows : Config.default.wf = true ∧ row 0x00 .brk .imp ∈ Config.default.table ∧
    row 0xFE .inc .abs ∉ Config.default.table ∧ row 0xF9 .sbc .absy ∈ Config.default.table := by decide

/-- StepRunsTheDecodedInstruction, both clauses: the fetched bytes decode, and no byte of the instruction is a device cell. -/
theorem witness_step_runs : loading.runState = .running ∧ loading.cfg.wf = true ∧
    decode loading.cfg.table (fetchBytes (Instr.ldaImm 0x80).length loading).1 = .ok (.ldaImm 0x80, []) ∧
    decode loading.cfg.table [loading.peek loading.pc, loading.peek (loading.pc + 1), loading.peek (loading.pc + 2)] =
      .ok (.ldaImm 0x80, [0x00]) ∧
    ∀ k, k < (Instr.ldaImm 0x80).length → loading.pc + BitVec.ofNat 16 k ≠ loading.cfg.randomAddr ∧
      loading.pc + BitVec.ofNat 16 k ≠ loading.cfg.inputAddr :=
  ⟨rfl, by decide, rfl, rfl, by decide⟩

/-- UnknownOpcodeEntersFaulted: an undocumented opcode, also as the last byte of memory. -/
theorem witness_unknown : faulting.runState = .running ∧ faulting.cfg.wf = true ∧
    lookup faulting.cfg.table (coreByte faulting.pc faulting) = none ∧
    lookup defaultTable (coreByte 0xFFFF (put 0xFFFF [0xFF] State.reset)) = none := by decide

/-- EndStatesAreFinal: one state of each kind. -/
theorem witness_end_states : (next halting).runState = .halted ∧ (next faulting).runState = .faulted := by decide

/-- StepAlwaysAnswers: a configuration that passes and one that fails. -/
theorem witness_step_answers : loading.cfg.wf = true ∧ ({ State.reset with cfg := brokenRow } : State).cfg.wf = false ∧
    ({ State.reset with cfg := brokenRow } : State).runState = .running := by decide

/-- PcAdvancesByTheLength, first clause: LDA; second clause: BNE with Z set. -/
theorem witness_pc_advances : loading.runState = .running ∧ loading.cfg.wf = true ∧
    lookup loading.cfg.table (coreByte loading.pc loading) = some ⟨.lda, .imm⟩ ∧ Mnemonic.lda ∉ pcWriters ∧
    step loading = .next (next loading) := ⟨rfl, by decide, rfl, by decide, rfl⟩

theorem witness_untaken_branch : let s := { launch [0xD0, 0x7F] with z := true }
    s.runState = .running ∧ s.cfg.wf = true ∧ lookup s.cfg.table (coreByte s.pc s) = some ⟨.bne, .rel⟩ ∧ s.z = true ∧
    step s = .next (next s) := ⟨rfl, by decide, rfl, rfl, rfl⟩

/-- BusAccessesOfAStep: a known opcode and an unknown one; JSR makes the five accesses of the upper end. -/
theorem witness_bus_accesses : loading.runState = .running ∧ loading.cfg.wf = true ∧
    step loading = .next (next loading) ∧ lookup loading.cfg.table (coreByte loading.pc loading) = some ⟨.lda, .imm⟩ ∧
    step faulting = .next (next faulting) ∧ lookup faulting.cfg.table (coreByte faulting.pc faulting) = none ∧
    busCount (next faulting).trace = 1 ∧ busCount (next (launch [0x20, 0x10, 0x06])).trace = 5 :=
  ⟨rfl, by decide, rfl, rfl, rfl, rfl, by decide, by decide⟩

/-- StepKeepsConfigurationAndInput. -/
theorem witness_step_keeps : step { loading with input := 0x26 } = .next (next { loading with input := 0x26 }) := rfl

/-- FlagWritersAreClosed: a load is no writer of C, a store leaves Z and N alone. -/
theorem witness_flag_writers :
    exec (.ldaImm 0x80) loading = .next (loadReg .a (.imm 0x80) loading) ∧ Mnemonic.lda ∉ carryWriters ∧
    exec (.staZp 0x10) loading = .next (storeReg .a (.zp 0x10) loading) ∧ Mnemonic.sta ∈ znKeepers :=
  ⟨rfl, by decide, rfl, by decide⟩

/-- StackPointerWritersAreClosed: TSX reads SP and does not write it. -/
theorem witness_sp_writers : exec .tsx loading = .next (writeReg .x loading.sp loading) ∧ Mnemonic.tsx ∉ spWriters :=
  ⟨rfl, by decide⟩

/-- MemoryWritersAreClosed: a load, and the accumulator form of a shift. -/
theorem witness_mem_writers :
    exec (.ldaImm 0x80) loading = .next (loadReg .a (.imm 0x80) loading) ∧ Mnemonic.lda ∉ memWriters ∧
    exec .aslAcc loading = .next (shiftAcc aslBits loading) ∧ Instr.aslAcc.desc.mode = .imp ∧
    Instr.aslAcc.desc.mnemonic ≠ .pha := ⟨rfl, by decide, rfl, rfl, by decide⟩

/-- OnlyBrkHalts: BRK, and an instruction that is not BRK. -/
theorem witness_only_brk : exec .brk loading = .next (halt loading) ∧ exec .nop loading = .next loading ∧
    Instr.nop ≠ .brk := ⟨rfl, rfl, by decide⟩

/-- The invariant holds of the small machine, and of the default and another configuration's reset. -/
theorem witness_invariant : Inv loading ∧ step loading = .next (next loading) :=
  ⟨⟨by decide, by decide, by decide, fun r h => (by cases h), rfl, rfl⟩, rfl⟩

/-- StepKeepsTheInvariant and HostActsKeepTheInvariant: a faulted machine meets it too. -/
theorem witness_invariant_faulted : Inv (next faulting) :=
  ⟨by decide, by decide, by decide, fun r h => (by cases h; exact ⟨rfl, rfl⟩), rfl, rfl⟩

theorem witness_host_acts : Inv loading ∧ ([.setInput 0x26, .load [0x05] 0x0601] : List HostAct).length = 2 :=
  ⟨witness_invariant.1, rfl⟩

/-- InvariantHoldsAtReset, second clause: another well-formed configuration. -/
theorem witness_reset_config : ({ Config.default with programOrigin := 0xFFFF, spReset := 0x00 } : Config).wf = true := by
  decide

/-- EffectiveAddressesOfTheModes: the pointer byte of (zp,X) where the sum wraps. -/
theorem witness_pointer_byte :
    (0x02 : Byte).toNat = ((0xF8 : Byte).toNat + ({ loading with x := 0x0A } : State).x.toNat) % 256 := by
  decide

/-- PointerHighByteAddress: both settings at 0xFF, where they differ, and at 0xFE, where they do not. -/
theorem witness_pointer_high_byte :
    Config.default.zpPtrWrap = true ∧ ({ Config.default with zpPtrWrap := false } : Config).zpPtrWrap = false ∧
    ptrHi Config.default 0xFF = 0x0000 ∧ ptrHi { Config.default with zpPtrWrap := false } 0xFF = 0x0100 ∧
    ptrHi Config.default 0xFE = 0x00FF ∧ ptrHi { Config.default with zpPtrWrap := false } 0xFE = 0x00FF := by decide

/-- WrittenDeviceCellsReadTheDevice: the two cells differ under the defaults. -/
theorem witness_written_cells : State.reset.cfg.randomAddr ≠ State.reset.cfg.inputAddr := by decide

end Sys2Proof.Tests
end

section
/-! The configuration check, one lemma per item of 00_scope.md rules R10 and R11 and 30_encoding.md rule R70, and the first
step of the reset machine. -/

namespace Sys2Proof

/-! ### The parameters (00_scope.md rules R10 and R11) -/

theorem Config.cellsDiffer_iff (c : Config) : c.cellsDiffer = true ↔ c.randomAddr ≠ c.inputAddr := by
  simp [Config.cellsDiffer]

theorem Config.inOutput_eq_false_iff (c : Config) (a : Addr) :
    c.inOutput a = false ↔ a.toNat < c.outBase.toNat ∨ c.outBase.toNat + c.outSize ≤ a.toNat := by
  simp only [Config.inOutput, Bool.and_eq_false_iff, decide_eq_false_iff_not, Nat.not_le, Nat.not_lt]

theorem Config.cellsOutsideOutput_iff (c : Config) : c.cellsOutsideOutput = true ↔
    ∀ a, a = c.randomAddr ∨ a = c.inputAddr →
      a.toNat < c.outBase.toNat ∨ c.outBase.toNat + c.outSize ≤ a.toNat := by
  simp only [← Config.inOutput_eq_false_iff, Config.cellsOutsideOutput, Bool.and_eq_true, Bool.not_eq_true',
    forall_eq_or_imp, forall_eq]

theorem Config.outputFits_iff (c : Config) : c.outputFits = true ↔ c.outBase.toNat + c.outSize ≤ 65536 :=
  decide_eq_true_iff

theorem Config.wholeRows_iff (c : Config) : c.wholeRows = true ↔ c.outWidth ∣ c.outSize := by
  rw [Config.wholeRows, beq_iff_eq, Nat.dvd_iff_mod_eq_zero]

theorem Config.countsPositive_iff (c : Config) :
    c.countsPositive = true ↔ 1 ≤ c.outSize ∧ 1 ≤ c.outWidth ∧ 1 ≤ c.paletteSize := by
  simp only [Config.countsPositive, Bool.and_eq_true, decide_eq_true_eq, and_assoc]

/-- The defaults pass: rule R10's values meet rule R11, and the default table meets rule R70. -/
theorem Config.default_wf : Config.default.wf = true := by decide

/-! ### The opcode table (30_encoding.md rules R70 and R71) -/

/-- The check compares neighbours; since `<` is transitive that orders every two rows. -/
theorem OpcodeTable.rising_iff_pairwise (t : OpcodeTable) :
    t.rising = true ↔ t.Pairwise (fun r q => r.opcode.toNat < q.opcode.toNat) := by
  have htrans : IsTrans OpcodeRow (fun r q => r.opcode.toNat < q.opcode.toNat) := ⟨fun _ _ _ => Nat.lt_trans⟩
  rw [← List.isChain_iff_pairwise]
  fun_induction OpcodeTable.rising t with
  | case1 => simp
  | case2 r => simp
  | case3 r q rest ih => simp [ih]

/-- In a rising table an opcode has at most one row. -/
theorem OpcodeTable.row_unique {t : OpcodeTable} (ht : t.rising = true) {r q : OpcodeRow} (hr : r ∈ t) (hq : q ∈ t)
    (h : r.opcode = q.opcode) : r = q := by
  have hnodup : (t.map OpcodeRow.opcode).Nodup :=
    List.pairwise_map.mpr (((OpcodeTable.rising_iff_pairwise t).mp ht).imp
      (fun hlt heq => Nat.ne_of_lt hlt (congrArg BitVec.toNat heq)))
  exact List.inj_on_of_nodup_map hnodup hr hq h

/-- Every cell of rule R71's table has a row in the default table. -/
theorem admittedModes_all_in_defaultTable (m : Mnemonic) :
    (admittedModes m).all (fun d => defaultTable.any (fun q => q.desc == ⟨m, d⟩)) = true := by
  cases m <;> rfl

/-- The admitted pairs are exactly the pairs of the default table's rows. -/
theorem Descriptor.admitted_iff_defaultRow (d : Descriptor) :
    d.admitted = true ↔ ∃ q ∈ defaultTable, q.desc = d := by
  constructor
  · intro h
    have hany := List.all_eq_true.mp (admittedModes_all_in_defaultTable d.mnemonic) d.mode (List.contains_iff_mem.mp h)
    simpa only [List.any_eq_true, beq_iff_eq] using hany
  · rintro ⟨q, hq, rfl⟩
    have hrows := (Bool.and_eq_true_iff.mp (Config.table_wf Config.default_wf)).2
    exact List.all_eq_true.mp hrows q hq

theorem OpcodeTable.wf_iff (t : OpcodeTable) : t.wf = true ↔
    (∀ r ∈ t, ∃ q ∈ defaultTable, q.desc = r.desc) ∧
      t.Pairwise (fun r q => r.opcode.toNat < q.opcode.toNat) := by
  simp only [OpcodeTable.wf, Bool.and_eq_true, List.all_eq_true, Descriptor.admitted_iff_defaultRow,
    OpcodeTable.rising_iff_pairwise]
  exact And.comm

end Sys2Proof

namespace Sys2Proof.Machine

/-! ### The first step after reset -/

/-- A step from RUNNING executes the instruction it fetched. -/
theorem step_eq_exec_of_fetchInstr {s s' : State} {i : Instr} (hr : s.runState = .running) (hw : s.cfg.wf = true)
    (hf : fetchInstr s = (.ok i, s')) : step s = exec i s' := by
  simp [step, hr, hw, hf]

/-- Memory of zeros holds a BRK at the origin (log entry 14). -/
theorem fetchInstr_reset :
    fetchInstr State.reset = (.ok .brk, { State.reset with pc := 0x0601, trace := [.read 0x0600] }) := rfl

theorem step_reset :
    step State.reset = .next { State.reset with pc := 0x0601, runState := .halted, trace := [.read 0x0600] } :=
  step_eq_exec_of_fetchInstr rfl Config.default_wf fetchInstr_reset

end Sys2Proof.Machine

open Sys2Proof Sys2Proof.Machine

/-- Settles O6: the check is the conjunction of its items, each by its own lemma; rising opcodes are distinct. -/
theorem configCheckSaysTheRules : Obligations.ConfigCheckSaysTheRules := by
  refine ⟨fun c => ?_, fun c hw r hr q hq h => ?_, Config.default_wf⟩
  · simp only [Config.wf, Bool.and_eq_true, Config.cellsDiffer_iff, Config.cellsOutsideOutput_iff,
      Config.outputFits_iff, Config.wholeRows_iff, Config.countsPositive_iff, OpcodeTable.wf_iff, and_assoc]
  · have hrising := (Bool.and_eq_true_iff.mp (Config.table_wf hw)).1
    exact OpcodeTable.row_unique hrising hr hq h

/-- Settles O8: the first two parts are the reset values as they stand, the third the BRK that the zeros of memory hold. -/
theorem resetUnderTheDefaults : Obligations.ResetUnderTheDefaults :=
  ⟨rfl, rfl, step_reset⟩

end

section
/-! The closed writers of 10_state.md and the invariant. `Acts` says once which shared action each instruction is;
`Progress` says once what every action keeps. Each statement about all instructions or all steps is a case analysis of
the one or a corollary of the other. -/

namespace Sys2Proof.Machine

/-! ### Storage: canonical memories (20_memory.md rule R39) -/

theorem Memory.wfFrom_cons {lo a : Nat} {v : Byte} {m : Memory} : Memory.wfFrom lo ((a, v) :: m) = true ↔
    lo ≤ a ∧ a < 65536 ∧ v ≠ unlistedByte ∧ Memory.wfFrom (a + 1) m = true := by
  simp only [Memory.wfFrom, Bool.and_eq_true, decide_eq_true_eq, bne_iff_ne, and_assoc]

theorem Memory.read_cons_self (a : Nat) (v : Byte) (m : Memory) : Memory.read ((a, v) :: m) a = v := if_pos rfl

theorem Memory.read_cons_of_ne {a b : Nat} (h : b ≠ a) (v : Byte) (m : Memory) :
    Memory.read ((b, v) :: m) a = Memory.read m a := if_neg h

/-- A canonical list lists nothing below its lower bound. -/
theorem Memory.read_below {m : Memory} {lo a : Nat} (hw : Memory.wfFrom lo m = true) (ha : a < lo) :
    Memory.read m a = unlistedByte := by
  induction m generalizing lo with
  | nil => rfl
  | cons cell m ih =>
    obtain ⟨k, v⟩ := cell
    obtain ⟨hlo, -, -, hm⟩ := Memory.wfFrom_cons.mp hw
    rw [Memory.read_cons_of_ne (by omega)]
    exact ih hm (by omega)

/-- The bound of a canonical list can be raised to its first address. -/
theorem Memory.wfFrom_head {lo k : Nat} {v : Byte} {m : Memory} (hw : Memory.wfFrom lo ((k, v) :: m) = true) :
    Memory.wfFrom k ((k, v) :: m) = true :=
  Memory.wfFrom_cons.mpr ⟨le_refl k, (Memory.wfFrom_cons.mp hw).2⟩

/-- The first cell of a canonical list holds a byte that a list starting above it cannot give. -/
theorem Memory.read_ne_of_head_lt {k lo lo' : Nat} {v : Byte} {m m' : Memory}
    (hw : Memory.wfFrom lo ((k, v) :: m) = true) (hw' : Memory.wfFrom lo' m' = true) (hk : k < lo') :
    Memory.read ((k, v) :: m) k ≠ Memory.read m' k := by
  obtain ⟨-, -, hv, -⟩ := Memory.wfFrom_cons.mp hw
  rwa [Memory.read_cons_self, Memory.read_below hw' hk]

/-- A canonical list with a cell does not read as the empty list does. -/
theorem Memory.exists_read_ne_nil {k lo : Nat} {v : Byte} {m : Memory}
    (hw : Memory.wfFrom lo ((k, v) :: m) = true) :
    ∃ a, a < 65536 ∧ Memory.read ((k, v) :: m) a ≠ Memory.read [] a :=
  ⟨k, (Memory.wfFrom_cons.mp hw).2.1, Memory.read_ne_of_head_lt (m' := []) hw rfl (Nat.lt_succ_self k)⟩

/-- Canonical lists that read alike are equal: their heads stand at one address, and below the tails nothing is listed. -/
theorem Memory.ext_of_wfFrom {m m' : Memory} {lo lo' : Nat} (hw : Memory.wfFrom lo m = true)
    (hw' : Memory.wfFrom lo' m' = true) (h : ∀ a, a < 65536 → Memory.read m a = Memory.read m' a) : m = m' := by
  induction m generalizing lo lo' m' with
  | nil =>
    cases m' with
    | nil => rfl
    | cons cell' m' =>
      obtain ⟨a, ha, hne⟩ := Memory.exists_read_ne_nil hw'
      exact absurd (h a ha).symm hne
  | cons cell m ih =>
    cases m' with
    | nil =>
      obtain ⟨a, ha, hne⟩ := Memory.exists_read_ne_nil hw
      exact absurd (h a ha) hne
    | cons cell' m' =>
      obtain ⟨k, v⟩ := cell
      obtain ⟨k', v'⟩ := cell'
      obtain ⟨-, hk, -, hm⟩ := Memory.wfFrom_cons.mp hw
      obtain ⟨-, hk', -, hm'⟩ := Memory.wfFrom_cons.mp hw'
      have hle : ¬ k < k' := fun hlt => Memory.read_ne_of_head_lt hw (Memory.wfFrom_head hw') hlt (h k hk)
      have hge : ¬ k' < k := fun hlt => Memory.read_ne_of_head_lt hw' (Memory.wfFrom_head hw) hlt (h k' hk').symm
      obtain rfl : k = k' := by omega
      have hv : v = v' := by simpa only [Memory.read_cons_self] using h k hk
      have htail : m = m' := ih hm hm' fun a ha => by
        by_cases hak : k = a
        · rw [Memory.read_below hm (by omega), Memory.read_below hm' (by omega)]
        · simpa only [Memory.read_cons_of_ne hak] using h a ha
      rw [hv, htail]

/-! ### Which action each instruction is -/

/-- The addressing mode of a form. -/
def AddrForm.mode : AddrForm → Mode
  | .zp _ => .zp
  | .zpx _ => .zpx
  | .indx _ => .indx
  | .indy _ => .indy
  | .abs _ _ => .abs
  | .absy _ _ => .absy

/-- The addressing mode of a source. -/
def Source.mode : Source → Mode
  | .imm _ => .imm
  | .mem f => f.mode

theorem AddrForm.mode_ne_imp (f : AddrForm) : f.mode ≠ .imp := by cases f <;> simp [AddrForm.mode]

/-- `Acts s i t`: from `s` the instruction `i` makes `t`. One constructor per shared action, with the mnemonics that are
it and the mode its operand has. -/
inductive Acts (s : State) : Instr → State → Prop
  | load {i : Instr} (r : Reg) (src : Source) (hm : i.desc.mnemonic ∈ [.lda, .ldx, .ldy])
      (hd : i.desc.mode = src.mode) : Acts s i (loadReg r src s)
  | store {i : Instr} (r : Reg) (f : AddrForm) (hm : i.desc.mnemonic ∈ [.sta, .stx, .sty])
      (hd : i.desc.mode = f.mode) : Acts s i (storeReg r f s)
  | regWrite {i : Instr} (r : Reg) (v : Byte)
      (hm : i.desc.mnemonic ∈ [.tax, .tay, .txa, .tya, .tsx, .inx, .iny, .dex, .dey])
      (hd : i.desc.mode = .imp) : Acts s i (writeReg r v s)
  | txs : Acts s .txs (s.setSp (s.reg .x))
  | pha : Acts s .pha (push (s.reg .a) s)
  | pla : Acts s .pla (writeReg .a (pull s).1 (pull s).2)
  | carry {i : Instr} (op : Byte → Byte → Bool → Byte × Bool) (src : Source) (hm : i.desc.mnemonic ∈ [.adc, .sbc])
      (hd : i.desc.mode = src.mode) : Acts s i (aluCarry op src s)
  | logic {i : Instr} (op : Byte → Byte → Byte) (src : Source) (hm : i.desc.mnemonic ∈ [.and, .ora, .eor])
      (hd : i.desc.mode = src.mode) : Acts s i (aluLogic op src s)
  | compare {i : Instr} (r : Reg) (src : Source) (hm : i.desc.mnemonic ∈ [.cmp, .cpx, .cpy])
      (hd : i.desc.mode = src.mode) : Acts s i (compareReg r src s)
  | bit {i : Instr} (f : AddrForm) (hm : i.desc.mnemonic ∈ [.bit]) (hd : i.desc.mode = f.mode) : Acts s i (bitTest f s)
  | incDec {i : Instr} (op : Byte → Byte) (f : AddrForm) (hm : i.desc.mnemonic ∈ [.inc, .dec])
      (hd : i.desc.mode = f.mode) : Acts s i (stepMem op f s)
  | shiftA {i : Instr} (op : Byte → Bool → Byte × Bool) (hm : i.desc.mnemonic ∈ [.asl, .lsr, .rol, .ror])
      (hd : i.desc.mode = .imp) : Acts s i (shiftAcc op s)
  | shiftM {i : Instr} (op : Byte → Bool → Byte × Bool) (f : AddrForm) (hm : i.desc.mnemonic ∈ [.asl, .lsr, .rol, .ror])
      (hd : i.desc.mode = f.mode) : Acts s i (shiftMem op f s)
  | jmp (lo hi : Byte) : Acts s (.jmp lo hi) (jump (cat hi lo) s)
  | jsr (lo hi : Byte) : Acts s (.jsr lo hi) (callTo (cat hi lo) s)
  | rts : Acts s .rts (returnFrom s)
  | branch {i : Instr} (p : Bool) (o : Byte)
      (hm : (i.desc.mnemonic, p) ∈
        [(.bpl, !s.n), (.bmi, s.n), (.bcc, !s.c), (.bcs, s.c), (.bne, !s.z), (.beq, s.z)])
      (hd : i.desc.mode = .rel) : Acts s i (branchIf p o s)
  | clc : Acts s .clc (s.carryIf false)
  | sec : Acts s .sec (s.carryIf true)
  | nop : Acts s .nop s
  | brk : Acts s .brk (halt s)

/-- Every instruction is one of the shared actions (41_load_store_transfer.md, 42_alu.md, 43_control.md). -/
theorem exec_acts {i : Instr} {s t : State} (h : exec i s = .next t) : Acts s i t := by
  cases i with
  | ldaImm | ldaZp | ldaZpx | ldaIndx | ldaIndy | ldaAbs | ldaAbsy | ldxImm | ldxZp | ldxAbs | ldxAbsy
  | ldyImm | ldyZp | ldyZpx | ldyAbs => cases h; exact .load _ _ (by simp [Instr.desc]) rfl
  | staZp | staZpx | staIndx | staIndy | staAbs | staAbsy | stxZp | stxAbs | styZp | styZpx | styAbs =>
    cases h; exact .store _ _ (by simp [Instr.desc]) rfl
  | tax | tay | txa | tya | tsx | inx | iny | dex | dey => cases h; exact .regWrite _ _ (by simp [Instr.desc]) rfl
  | txs => cases h; exact .txs
  | pha => cases h; exact .pha
  | pla => cases h; exact .pla
  | adcImm | adcZp | adcZpx | adcIndx | adcIndy | adcAbs | adcAbsy | sbcImm | sbcZp | sbcZpx | sbcIndx | sbcIndy
  | sbcAbs | sbcAbsy => cases h; exact .carry _ _ (by simp [Instr.desc]) rfl
  | andImm | andZp | andZpx | andIndx | andIndy | andAbs | andAbsy | oraImm | oraZp | oraZpx | oraIndx | oraIndy
  | oraAbs | oraAbsy | eorImm | eorZp | eorZpx | eorIndx | eorIndy | eorAbs | eorAbsy =>
    cases h; exact .logic _ _ (by simp [Instr.desc]) rfl
  | cmpImm | cmpZp | cmpZpx | cmpIndx | cmpIndy | cmpAbs | cmpAbsy | cpxImm | cpxZp | cpxAbs | cpyImm | cpyZp
  | cpyAbs => cases h; exact .compare _ _ (by simp [Instr.desc]) rfl
  | bitZp | bitAbs => cases h; exact .bit _ (by simp [Instr.desc]) rfl
  | incZp | incZpx | incAbs | decZp | decZpx | decAbs => cases h; exact .incDec _ _ (by simp [Instr.desc]) rfl
  | aslAcc | lsrAcc | rolAcc | rorAcc => cases h; exact .shiftA _ (by simp [Instr.desc]) rfl
  | aslZp | aslZpx | aslAbs | lsrZp | lsrZpx | lsrAbs | rolZp | rolZpx | rolAbs | rorZp | rorZpx | rorAbs =>
    cases h; exact .shiftM _ _ (by simp [Instr.desc]) rfl
  | jmp => cases h; exact .jmp _ _
  | jsr => cases h; exact .jsr _ _
  | rts => cases h; exact .rts
  | bpl | bmi | bcc | bcs | bne | beq => cases h; exact .branch _ _ (by simp [Instr.desc]) rfl
  | clc => cases h; exact .clc
  | sec => cases h; exact .sec
  | nop => cases h; exact .nop
  | brk => cases h; exact .brk

/-! ### What each operation leaves unchanged -/

/-- A mnemonic of a sublist of the writers is a writer; the inclusion is decided. -/
theorem mem_of_mem_subset {m : Mnemonic} {l k : List Mnemonic} (hm : m ∈ l) (hl : l ⊆ k := by decide) : m ∈ k := hl hm

/-- A mnemonic of a list apart from the keepers is no keeper; the apartness is decided. -/
theorem not_mem_of_mem_disjoint {m : Mnemonic} {l k : List Mnemonic} (hm : m ∈ l)
    (hl : ∀ x ∈ l, x ∉ k := by decide) : m ∉ k := hl m hm

@[simp] theorem writeReg_frame (r : Reg) (v : Byte) (s : State) : let t := writeReg r v s
    t.sp = s.sp ∧ t.pc = s.pc ∧ t.c = s.c ∧ t.mem = s.mem := by
  simp [writeReg_state]

@[simp] theorem busWrite_frame (a : Addr) (v : Byte) (s : State) : let t := busWrite a v s
    (∀ r, t.reg r = s.reg r) ∧ t.sp = s.sp ∧ t.pc = s.pc ∧ t.c = s.c ∧ t.z = s.z ∧ t.n = s.n := by
  refine ⟨fun r => ?_, ?_⟩
  · cases r <;> simp [busWrite_state]
  · simp [busWrite_state]

@[simp] theorem push_frame (v : Byte) (s : State) : let t := push v s
    (∀ r, t.reg r = s.reg r) ∧ t.pc = s.pc ∧ t.c = s.c ∧ t.z = s.z ∧ t.n = s.n := by
  simp [push]

@[simp] theorem pull_frame (s : State) : let t := (pull s).2
    (∀ r, t.reg r = s.reg r) ∧ t.pc = s.pc ∧ t.c = s.c ∧ t.z = s.z ∧ t.n = s.n ∧ t.mem = s.mem := by
  simp [pull_state]

@[simp] theorem callTo_frame (a : Addr) (s : State) : let t := callTo a s
    (∀ r, t.reg r = s.reg r) ∧ t.c = s.c ∧ t.z = s.z ∧ t.n = s.n := by
  simp [callTo]

@[simp] theorem returnFrom_frame (s : State) : let t := returnFrom s
    (∀ r, t.reg r = s.reg r) ∧ t.c = s.c ∧ t.z = s.z ∧ t.n = s.n ∧ t.mem = s.mem := by
  simp [returnFrom]

@[simp] theorem jump_frame (a : Addr) (s : State) : let t := jump a s
    (∀ r, t.reg r = s.reg r) ∧ t.sp = s.sp ∧ t.c = s.c ∧ t.z = s.z ∧ t.n = s.n ∧ t.mem = s.mem := by
  simp [jump]

@[simp] theorem branchIf_frame (p : Bool) (o : Byte) (s : State) : let t := branchIf p o s
    (∀ r, t.reg r = s.reg r) ∧ t.sp = s.sp ∧ t.c = s.c ∧ t.z = s.z ∧ t.n = s.n ∧ t.mem = s.mem := by
  cases p <;> simp [branchIf, branch]

@[simp] theorem loadReg_frame (r : Reg) (src : Source) (s : State) : let t := loadReg r src s
    t.sp = s.sp ∧ t.pc = s.pc ∧ t.c = s.c ∧ t.mem = s.mem := by
  simp [loadReg_state]

@[simp] theorem storeReg_frame (r : Reg) (f : AddrForm) (s : State) : let t := storeReg r f s
    (∀ q, t.reg q = s.reg q) ∧ t.sp = s.sp ∧ t.pc = s.pc ∧ t.c = s.c ∧ t.z = s.z ∧ t.n = s.n := by
  simp [storeReg_state]

@[simp] theorem aluCarry_frame (op : Byte → Byte → Bool → Byte × Bool) (src : Source) (s : State) :
    let t := aluCarry op src s
    t.sp = s.sp ∧ t.pc = s.pc ∧ t.mem = s.mem := by
  simp [aluCarry_state]

@[simp] theorem aluLogic_frame (op : Byte → Byte → Byte) (src : Source) (s : State) : let t := aluLogic op src s
    t.sp = s.sp ∧ t.pc = s.pc ∧ t.c = s.c ∧ t.mem = s.mem := by
  simp [aluLogic_state]

@[simp] theorem compareReg_frame (r : Reg) (src : Source) (s : State) : let t := compareReg r src s
    (∀ q, t.reg q = s.reg q) ∧ t.sp = s.sp ∧ t.pc = s.pc ∧ t.mem = s.mem := by
  simp [compareReg_state, compareFlags, setZN]

@[simp] theorem bitTest_frame (f : AddrForm) (s : State) : let t := bitTest f s
    (∀ r, t.reg r = s.reg r) ∧ t.sp = s.sp ∧ t.pc = s.pc ∧ t.c = s.c ∧ t.mem = s.mem := by
  simp [bitTest_state, bitFlags]

@[simp] theorem stepMem_frame (op : Byte → Byte) (f : AddrForm) (s : State) : let t := stepMem op f s
    (∀ r, t.reg r = s.reg r) ∧ t.sp = s.sp ∧ t.pc = s.pc ∧ t.c = s.c := by
  simp [stepMem_state, setZN]

@[simp] theorem shiftAcc_frame (op : Byte → Bool → Byte × Bool) (s : State) : let t := shiftAcc op s
    t.sp = s.sp ∧ t.pc = s.pc ∧ t.mem = s.mem := by
  simp [shiftAcc]

@[simp] theorem shiftMem_frame (op : Byte → Bool → Byte × Bool) (f : AddrForm) (s : State) :
    let t := shiftMem op f s
    (∀ r, t.reg r = s.reg r) ∧ t.sp = s.sp ∧ t.pc = s.pc := by
  simp [shiftMem_state, setZN]

/-! ### Closed writers: an action either leaves the field or its mnemonics are listed (10_state.md rules R23 to R30) -/

theorem Acts.c_eq {s t : State} {i : Instr} (h : Acts s i t) (hi : i.desc.mnemonic ∉ carryWriters) : t.c = s.c := by
  cases h with
  | carry _ _ hm | compare _ _ hm | shiftA _ hm | shiftM _ _ hm => exact absurd (mem_of_mem_subset hm) hi
  | clc | sec => exact absurd (by decide) hi
  | _ => simp

theorem Acts.zn_eq {s t : State} {i : Instr} (h : Acts s i t) (hi : i.desc.mnemonic ∈ znKeepers) :
    t.z = s.z ∧ t.n = s.n := by
  cases h with
  | load _ _ hm | regWrite _ _ hm | carry _ _ hm | logic _ _ hm | compare _ _ hm | bit _ hm | incDec _ _ hm
  | shiftA _ hm | shiftM _ _ hm => exact absurd hi (not_mem_of_mem_disjoint hm)
  | pla => exact absurd hi (by decide)
  | _ => simp

theorem Acts.sp_eq {s t : State} {i : Instr} (h : Acts s i t) (hi : i.desc.mnemonic ∉ spWriters) : t.sp = s.sp := by
  cases h with
  | txs | pha | pla | jsr | rts => simp [spWriters, Instr.desc] at hi
  | _ => simp

theorem Acts.mem_eq {s t : State} {i : Instr} (h : Acts s i t)
    (hi : i.desc.mnemonic ∉ memWriters ∨ (i.desc.mode = .imp ∧ i.desc.mnemonic ≠ .pha)) : t.mem = s.mem := by
  cases h with
  | store _ f hm hd | incDec _ f hm hd | shiftM _ f hm hd =>
    have hmode : i.desc.mode ≠ .imp := hd ▸ f.mode_ne_imp
    have hmem : i.desc.mnemonic ∈ memWriters := mem_of_mem_subset hm
    simp [hmode, hmem] at hi
  | pha | jsr => simp [memWriters, Instr.desc] at hi
  | _ => simp

/-! ### The register write (10_state.md rule R19) -/

theorem writeReg_flagsOf (r : Reg) (v : Byte) (s : State) : FlagsOf v (writeReg r v s) := by
  simp [FlagsOf, writeReg_state, BitVec.msb_eq_getLsbD_last]

theorem writeReg_reg (r q : Reg) (v : Byte) (s : State) :
    (writeReg r v s).reg q = if q = r then v else s.reg q := by
  simp [writeReg_state]

/-- A register that a write of one register has changed is the one written, so Z and N are those of its value. -/
theorem writeReg_flagsOf_changed {q r : Reg} {v b : Byte} {s : State} (hs : s.reg r = b)
    (h : (writeReg q v s).reg r ≠ b) : FlagsOf ((writeReg q v s).reg r) (writeReg q v s) := by
  rw [writeReg_reg] at h ⊢
  split at h
  · next hrq => rw [if_pos hrq]; exact writeReg_flagsOf q v s
  · exact absurd hs h

/-- An instruction that changes a register ends in a write of it. -/
theorem Acts.flagsOf_changed {s t : State} {i : Instr} {r : Reg} (h : Acts s i t) (hr : t.reg r ≠ s.reg r) :
    FlagsOf (t.reg r) t := by
  cases h with
  | load q src => rw [loadReg_state] at hr ⊢; exact writeReg_flagsOf_changed (by simp) hr
  | regWrite => exact writeReg_flagsOf_changed rfl hr
  | pla => exact writeReg_flagsOf_changed (by simp) hr
  | carry => rw [aluCarry_state] at hr ⊢; exact writeReg_flagsOf_changed (by simp) hr
  | logic => rw [aluLogic_state] at hr ⊢; exact writeReg_flagsOf_changed (by simp) hr
  | shiftA => exact writeReg_flagsOf_changed (by simp) hr
  | _ => exact absurd (by simp) hr

/-! ### What every operation does to the device side of the state (20_memory.md rules R42, R44; 60_exceptions.md) -/

/-- From `s` to `t` the parameters, INPUT and the fault record are kept, the machine may halt but not fault, memory stays
canonical, and the new events count their draws and pair each output write with its pixel event. -/
structure Progress (s t : State) : Prop where
  cfg : t.cfg = s.cfg
  input : t.input = s.input
  fault : t.fault = s.fault
  runState : t.runState = s.runState ∨ t.runState = .halted
  memory : Memory.wf s.mem = true → Memory.wf t.mem = true
  bus : ∃ evs, BusDoes evs s t ∧ pixelsFollowWrites s.cfg evs

namespace Progress

/-- An update of registers and flags only. -/
theorem of_same {s t : State} (hcfg : t.cfg = s.cfg) (hinput : t.input = s.input) (hfault : t.fault = s.fault)
    (hrun : t.runState = s.runState ∨ t.runState = .halted) (hmem : t.mem = s.mem) (hdraws : t.draws = s.draws)
    (htrace : t.trace = s.trace) : Progress s t :=
  ⟨hcfg, hinput, hfault, hrun, fun hw => hmem ▸ hw, [], by simp [BusDoes, hdraws, htrace]⟩

theorem trans {s t u : State} (h : Progress s t) (h' : Progress t u) : Progress s u := by
  obtain ⟨evs, ⟨htr, hdr⟩, hpx⟩ := h.bus
  obtain ⟨evs', ⟨htr', hdr'⟩, hpx'⟩ := h'.bus
  rw [h.cfg] at hdr' hpx'
  refine ⟨h'.cfg.trans h.cfg, h'.input.trans h.input, h'.fault.trans h.fault, ?_, h'.memory ∘ h.memory,
    evs ++ evs', ⟨?_, ?_⟩, pixelsFollowWrites_append hpx hpx'⟩
  · rcases h'.runState with hr | hr
    · exact hr ▸ h.runState
    · exact .inr hr
  · rw [htr', htr, List.append_assoc]
  · rw [hdr', hdr, drawsIn_append, Nat.add_assoc]

theorem refl (s : State) : Progress s s := of_same rfl rfl rfl (.inl rfl) rfl rfl rfl

theorem note {s : State} {evs : List Event} (h : pixelsFollowWrites s.cfg evs) : Progress s (s.note evs) :=
  ⟨rfl, rfl, rfl, .inl rfl, id, evs, ⟨rfl, rfl⟩, h⟩

theorem setPc (s : State) (a : Addr) : Progress s (s.setPc a) := of_same rfl rfl rfl (.inl rfl) rfl rfl rfl

theorem setSp (s : State) (v : Byte) : Progress s (s.setSp v) := of_same rfl rfl rfl (.inl rfl) rfl rfl rfl

theorem carryIf (s : State) (p : Bool) : Progress s (s.carryIf p) := of_same rfl rfl rfl (.inl rfl) rfl rfl rfl

theorem setFlagsZN (s : State) (p q : Bool) : Progress s (s.setFlagsZN p q) :=
  of_same rfl rfl rfl (.inl rfl) rfl rfl rfl

theorem halt (s : State) : Progress s (halt s) := of_same rfl rfl rfl (.inr rfl) rfl rfl rfl

theorem setReg (s : State) (r : Reg) (v : Byte) : Progress s (s.setReg r v) := by
  apply of_same <;> simp

theorem writeReg (r : Reg) (v : Byte) (s : State) : Progress s (writeReg r v s) :=
  (setReg s r v).trans (setFlagsZN _ _ _)

theorem busWrite (a : Addr) (v : Byte) (s : State) : Progress s (busWrite a v s) := by
  rw [busWrite_state]
  exact ⟨rfl, rfl, rfl, .inl rfl, s.poke_wf a v, writeEvents s.cfg a v, by simp [BusDoes]⟩

theorem push (v : Byte) (s : State) : Progress s (push v s) := (setSp s _).trans (busWrite _ _ _)

theorem pull (s : State) : Progress s (pull s).2 := by
  rw [pull_state]
  exact (note (by simp)).trans (setSp _ _)

theorem callTo (a : Addr) (s : State) : Progress s (callTo a s) :=
  ((push _ s).trans (push _ _)).trans (setPc _ a)

theorem returnFrom (s : State) : Progress s (returnFrom s) := ((pull s).trans (pull _)).trans (setPc _ _)

theorem branchIf (p : Bool) (o : Byte) (s : State) : Progress s (branchIf p o s) := by
  cases p
  · exact refl s
  · exact setPc s _

end Progress

theorem AddrForm.pointerEvents_pixels (f : AddrForm) (s : State) (cfg : Config) :
    pixelsFollowWrites cfg (f.pointerEvents s) := by
  cases f <;> simp [AddrForm.pointerEvents]

theorem Source.events_pixels (src : Source) (s : State) (cfg : Config) : pixelsFollowWrites cfg (src.events s) := by
  cases src with
  | imm b => simp [Source.events]
  | mem f => exact pixelsFollowWrites_append (f.pointerEvents_pixels s cfg) (by simp)

theorem fetchEvents_pixels (cfg : Config) (k : Nat) (pc : Addr) : pixelsFollowWrites cfg (fetchEvents k pc) := by
  induction k generalizing pc with
  | zero => simp [fetchEvents]
  | succ k ih => simpa [fetchEvents] using ih (pc + 1)

theorem Progress.events (src : Source) (s : State) : Progress s (s.note (src.events s)) :=
  .note (src.events_pixels s s.cfg)

/-- Every instruction is a composition of operations that are progress. -/
theorem Acts.progress {s t : State} {i : Instr} (h : Acts s i t) : Progress s t := by
  cases h with
  | load r src => exact loadReg_state r src s ▸ (Progress.events src s).trans (.writeReg _ _ _)
  | store r f => exact storeReg_state r f s ▸ (Progress.note (f.pointerEvents_pixels s s.cfg)).trans (.busWrite _ _ _)
  | regWrite r v => exact .writeReg r v s
  | txs => exact .setSp s _
  | pha => exact .push _ s
  | pla => exact (Progress.pull s).trans (.writeReg _ _ _)
  | carry op src =>
    exact aluCarry_state op src s ▸ ((Progress.events src s).trans (.carryIf _ _)).trans (.writeReg _ _ _)
  | logic op src => exact aluLogic_state op src s ▸ (Progress.events src s).trans (.writeReg _ _ _)
  | compare r src =>
    exact compareReg_state r src s ▸ ((Progress.events src s).trans (.carryIf _ _)).trans (.setFlagsZN _ _ _)
  | bit f => exact bitTest_state f s ▸ (Progress.events (.mem f) s).trans (.setFlagsZN _ _ _)
  | incDec op f =>
    exact stepMem_state op f s ▸ ((Progress.events (.mem f) s).trans (.busWrite _ _ _)).trans (.setFlagsZN _ _ _)
  | shiftA op => exact (Progress.carryIf s _).trans (.writeReg _ _ _)
  | shiftM op f =>
    exact shiftMem_state op f s ▸
      (((Progress.events (.mem f) s).trans (.carryIf _ _)).trans (.busWrite _ _ _)).trans (.setFlagsZN _ _ _)
  | jmp lo hi => exact .setPc s _
  | jsr lo hi => exact .callTo _ s
  | rts => exact .returnFrom s
  | branch p o => exact .branchIf p o s
  | clc | sec => exact .carryIf s _
  | nop => exact .refl s
  | brk => exact .halt s

/-! ### What a step can do -/

/-- A step that answers is a stopped machine standing still, the exception after one fetch, or the instruction after its
fetch (40_step_and_addressing.md rules R78 and R79, 60_exceptions.md rule R150). -/
theorem step_next_cases {s t : State} (h : step s = .next t) :
    (s.runState ≠ .running ∧ t = s) ∨
    (s.runState = .running ∧ s.cfg.wf = true ∧ lookup s.cfg.table (fetch s).1 = none ∧
      t = raiseUnknownOpcode (fetch s).1 (fetch s).2) ∨
    (s.runState = .running ∧ s.cfg.wf = true ∧ ∃ i : Instr, lookup s.cfg.table (fetch s).1 = some i.desc ∧
      i.operands = (fetchBytes i.desc.mode.operandBytes (fetch s).2).1 ∧
      Acts ((s.note (fetchEvents i.length s.pc)).setPc (s.pc + BitVec.ofNat 16 i.length)) i t) := by
  cases hr : s.runState with
  | halted | faulted =>
    exact .inl ⟨by simp, by simpa [step, hr, eq_comm] using h⟩
  | running =>
    right
    by_cases hw : s.cfg.wf = true
    · rcases step_cases s hr hw with ⟨hl, hs⟩ | ⟨i, hl, ho, hs⟩
      · rw [hs] at h
        cases h
        exact .inl ⟨rfl, hw, hl, rfl⟩
      · exact .inr ⟨rfl, hw, i, hl, ho, exec_acts (hs ▸ h)⟩
    · simp [step, hr, hw] at h

theorem fetch_progress (s : State) : Progress s (fetch s).2 := by
  rw [fetch_state]
  exact (Progress.note (by simp)).trans (.setPc _ _)

theorem fetchEvents_progress (k : Nat) (s : State) (pc : Addr) :
    Progress s ((s.note (fetchEvents k s.pc)).setPc pc) :=
  (Progress.note (fetchEvents_pixels s.cfg k s.pc)).trans (.setPc _ _)

/-! ### The invariant -/

/-- In RUNNING the record is unset, so nothing but the exception can touch its clauses. -/
theorem Inv.of_progress {s t : State} (hi : Inv s) (hr : s.runState = .running) (hp : Progress s t) : Inv t := by
  have hnone : t.fault = none := by
    have hs : s.fault.isSome ≠ true := fun h => by simp [hi.record.mp h] at hr
    rw [hp.fault]
    simpa using hs
  have hrun : t.runState ≠ .faulted := by
    rcases hp.runState with h | h <;> simp [h, hr]
  obtain ⟨evs, ⟨htr, hdr⟩, hpx⟩ := hp.bus
  exact {
    config := hp.cfg ▸ hi.config
    memory := hp.memory hi.memory
    record := by simp [hnone, hrun]
    faultOf := by simp [hnone]
    draws := by rw [hdr, htr, hp.cfg, drawsIn_append, hi.draws]
    pixels := by rw [htr, hp.cfg]; exact pixelsFollowWrites_append hi.pixels hpx }

/-- Taking the exception for an opcode with no entry sets the record the invariant asks for. -/
theorem Inv.raiseUnknownOpcode {s : State} {op : Byte} (hi : Inv s) (hl : lookup s.cfg.table op = none) :
    Inv (raiseUnknownOpcode op s) where
  config := hi.config
  memory := hi.memory
  record := by simp
  faultOf := by rintro r ⟨⟩; exact ⟨rfl, hl⟩
  draws := hi.draws
  pixels := hi.pixels

theorem Inv.resetWith {c : Config} (hc : c.wf = true) : Inv (State.resetWith c) where
  config := hc
  memory := rfl
  record := by simp [State.resetWith]
  faultOf := by simp [State.resetWith]
  draws := rfl
  pixels := rfl

end Sys2Proof.Machine

open Sys2Proof Sys2Proof.Machine

/-- Settles O34: a stopped machine stands still; the exception writes the record it should; every instruction is progress. -/
theorem stepKeepsTheInvariant : Obligations.StepKeepsTheInvariant := by
  intro s t hi h
  rcases step_next_cases h with ⟨-, rfl⟩ | ⟨hr, -, hl, rfl⟩ | ⟨hr, -, i, -, -, ha⟩
  · exact hi
  · have hf := fetch_progress s
    exact (hi.of_progress hr hf).raiseUnknownOpcode (hf.cfg ▸ hl)
  · exact hi.of_progress hr ((fetchEvents_progress _ s _).trans ha.progress)

/-- Settles O9, by induction on both lists. -/
theorem canonicalMemoriesThatReadAlikeAreEqual : Obligations.CanonicalMemoriesThatReadAlikeAreEqual :=
  fun _ _ hw hw' h => Memory.ext_of_wfFrom hw hw' fun a ha => h (BitVec.ofNatLT a ha)

/-- Settles O15: every change of a register is a register write. -/
theorem everyRegisterWriteSetsZeroAndNegative : Obligations.EveryRegisterWriteSetsZeroAndNegative := by
  refine ⟨fun r v s => ?_, fun i s t r h hr => (exec_acts h).flagsOf_changed hr⟩
  obtain ⟨hz, hn⟩ := writeReg_flagsOf r v s
  exact ⟨by simp [writeReg_reg], fun q hq => by simp [writeReg_reg, hq], hz, hn, by cases r <;> rfl⟩

/-- Settles O25: in RUNNING the configuration decides between the two cases of `step_cases` and the refusal. -/
theorem stepAlwaysAnswers : Obligations.StepAlwaysAnswers := by
  refine fun s => ⟨fun hw => ?_, fun hw hr => by simp [step, hr, hw], fun f => nomatch f⟩
  cases hr : s.runState with
  | halted | faulted => exact ⟨s, by simp [step, hr]⟩
  | running =>
    rcases step_cases s hr hw with ⟨-, hs⟩ | ⟨i, -, -, hs⟩
    · exact ⟨_, hs⟩
    · exact hs ▸ exec_next i _

/-- Settles O28: the fetch, the exception and every instruction keep both fields. -/
theorem stepKeepsConfigurationAndInput : Obligations.StepKeepsConfigurationAndInput := by
  intro s t h
  rcases step_next_cases h with ⟨-, rfl⟩ | ⟨-, -, -, rfl⟩ | ⟨-, -, i, -, -, ha⟩
  · exact ⟨rfl, rfl⟩
  · exact ⟨(fetch_progress s).cfg, (fetch_progress s).input⟩
  · have hp := (fetchEvents_progress _ s _).trans ha.progress
    exact ⟨hp.cfg, hp.input⟩

/-- Settles O29: action by action, a change of a flag comes from a listed mnemonic. -/
theorem flagWritersAreClosed : Obligations.FlagWritersAreClosed :=
  fun _ _ _ h => ⟨(exec_acts h).c_eq, (exec_acts h).zn_eq⟩

/-- Settles O30: action by action, a change of SP comes from a listed mnemonic. -/
theorem stackPointerWritersAreClosed : Obligations.StackPointerWritersAreClosed :=
  fun _ _ _ h => (exec_acts h).sp_eq

/-- Settles O31: not only the bytes, the list itself is unchanged. -/
theorem memoryWritersAreClosed : Obligations.MemoryWritersAreClosed :=
  fun _ _ _ h hi a => congrArg (Memory.read · a.toNat) ((exec_acts h).mem_eq hi)

/-- Settles O7: each field of `resetWith` is the parameter, and the empty list lists no byte. -/
theorem resetLeavesTheResetValues : Obligations.ResetLeavesTheResetValues :=
  fun _ => ⟨fun _ => rfl, rfl, rfl, rfl, rfl, rfl, rfl, rfl, rfl, rfl, rfl, rfl, rfl⟩

/-- Settles O20: the record is shown by the run state alone. -/
theorem hostInputAndInspection : Obligations.HostInputAndInspection :=
  fun _ _ => ⟨rfl, fun _ => rfl, fun h => if_neg h, fun h => if_pos h⟩

/-- Settles O33: the clauses of the reset state are closed, given the check of its configuration. -/
theorem invariantHoldsAtReset : Obligations.InvariantHoldsAtReset :=
  ⟨Inv.resetWith Config.default_wf, fun _ => Inv.resetWith⟩

end

section
/-! Memory, the stack and the host's load (20_memory.md). `busRead_val` and `busWrite_peek` say once what the MemoryMap
gives; `Descends` and `Ascends` what runs of pushes and of pulls leave of the stack window; and the lemmas of
`SameButDeviceBytes` are the simulation of two machines that differ in bytes no core read returns. -/

namespace Sys2Proof

theorem Config.inOutput_iff (c : Config) (a : Addr) :
    c.inOutput a = true ↔ c.outBase.toNat ≤ a.toNat ∧ a.toNat < c.outBase.toNat + c.outSize := by
  simp only [Config.inOutput, Bool.and_eq_true, decide_eq_true_eq]

/-- Neither device cell of a well-formed configuration lies in the output range (00_scope.md rule R11). -/
theorem Config.ne_cells_of_inOutput {c : Config} {a : Addr} (hw : c.wf = true) (ha : c.inOutput a = true) :
    a ≠ c.randomAddr ∧ a ≠ c.inputAddr := by
  obtain ⟨-, hout, -⟩ := (configCheckSaysTheRules.1 c).mp hw
  obtain ⟨hlo, hhi⟩ := (c.inOutput_iff a).mp ha
  have hcell : ¬ (a = c.randomAddr ∨ a = c.inputAddr) := fun h => by
    rcases hout a h with h | h <;> omega
  exact not_or.mp hcell

end Sys2Proof

namespace Sys2Proof.Machine

/-! ### Core reads and writes (20_memory.md rules R40 to R46) -/

/-- The value of a core read is the MemoryMap's (20_memory.md rule R40). -/
theorem busRead_val (a : Addr) (s : State) : (busRead a s).1 = coreByte a s := by
  unfold busRead coreByte
  split
  · rfl
  · split <;> rfl

/-- A core read of an address that is no device cell returns the stored byte (20_memory.md rule R45). -/
theorem coreByte_of_clear {a : Addr} {s : State} (hr : a ≠ s.cfg.randomAddr) (hi : a ≠ s.cfg.inputAddr) :
    coreByte a s = s.peek a := by
  rw [coreByte, if_neg hr, if_neg hi]

/-- A core write stores the byte at its address and nowhere else (20_memory.md rules R41 and R46). -/
theorem busWrite_peek (a : Addr) (v : Byte) (s : State) : StoresOnly a v s (busWrite a v s) := by
  intro b
  rw [busWrite_state]
  exact State.poke_peek s a b v

@[simp] theorem busWrite_cfg (a : Addr) (v : Byte) (s : State) : (busWrite a v s).cfg = s.cfg := by
  rw [busWrite_state]; rfl

@[simp] theorem busWrite_draws (a : Addr) (v : Byte) (s : State) : (busWrite a v s).draws = s.draws := by
  rw [busWrite_state]; rfl

@[simp] theorem busWrite_input (a : Addr) (v : Byte) (s : State) : (busWrite a v s).input = s.input := by
  rw [busWrite_state]; rfl

/-! ### One push and one pull (20_memory.md rules R52 to R56) -/

/-- Push stores the byte at the slot of the new SP (20_memory.md rule R53). -/
theorem push_peek (v : Byte) (s : State) : StoresOnly (stackAddr s.cfg (s.sp - 1)) v s (push v s) :=
  busWrite_peek _ _ _

@[simp] theorem push_sp (v : Byte) (s : State) : (push v s).sp = s.sp - 1 := by
  rw [push_state]; rfl

@[simp] theorem push_cfg (v : Byte) (s : State) : (push v s).cfg = s.cfg := by
  rw [push_state]; rfl

@[simp] theorem pull_sp (s : State) : (pull s).2.sp = s.sp + 1 := by
  rw [pull_state]; rfl

@[simp] theorem pull_cfg (s : State) : (pull s).2.cfg = s.cfg := by
  rw [pull_state]; rfl

theorem pull_val (s : State) : (pull s).1 = coreByte (stackAddr s.cfg s.sp) s := busRead_val _ _

/-- A pull from a window without device cells returns the stored byte (20_memory.md rule R56). -/
theorem pull_val_of_clear {s : State} (hc : StackClear s.cfg) : (pull s).1 = s.peek (stackAddr s.cfg s.sp) := by
  rw [pull_val, coreByte_of_clear (hc _).1 (hc _).2]

/-! ### Runs of stack operations -/

/-- The registers, the flags and the parameters are as before. -/
def KeepsRegs (s t : State) : Prop := (∀ r, t.reg r = s.reg r) ∧ KeepsFlags s t ∧ t.cfg = s.cfg

theorem KeepsRegs.trans {s t u : State} (h : KeepsRegs s t) (h' : KeepsRegs t u) : KeepsRegs s u := by
  obtain ⟨hreg, ⟨hc, hz, hn⟩, hcfg⟩ := h
  obtain ⟨hreg', ⟨hc', hz', hn'⟩, hcfg'⟩ := h'
  exact ⟨fun r => (hreg' r).trans (hreg r), ⟨hc'.trans hc, hz'.trans hz, hn'.trans hn⟩, hcfg'.trans hcfg⟩

/-- `n` bytes pushed from `s` to `t`: SP fell by `n` modulo 256, and the `256 - n` slots from the old SP upwards, which
the pushes do not reach, hold what they held. -/
structure Descends (n : Nat) (s t : State) : Prop where
  sp : t.sp = s.sp - BitVec.ofNat 8 n
  regs : KeepsRegs s t
  slots : ∀ k, k + n < 256 →
    t.peek (stackAddr s.cfg (s.sp + BitVec.ofNat 8 k)) = s.peek (stackAddr s.cfg (s.sp + BitVec.ofNat 8 k))

/-- `n` bytes pulled from `s` to `t`: SP rose by `n` modulo 256, and memory is as before. -/
structure Ascends (n : Nat) (s t : State) : Prop where
  sp : t.sp = s.sp + BitVec.ofNat 8 n
  regs : KeepsRegs s t
  mem : t.mem = s.mem

namespace Descends

theorem trans {m n : Nat} {s t u : State} (h : Descends m s t) (h' : Descends n t u) : Descends (n + m) s u where
  sp := by rw [h'.sp, h.sp, BitVec.ofNat_add]; bv_omega
  regs := h.regs.trans h'.regs
  slots k hk := by
    obtain ⟨-, -, hcfg⟩ := h.regs
    have hslot : s.sp + BitVec.ofNat 8 k = t.sp + BitVec.ofNat 8 (k + m) := by
      rw [h.sp, BitVec.ofNat_add]; bv_omega
    calc u.peek (stackAddr s.cfg (s.sp + BitVec.ofNat 8 k))
        = t.peek (stackAddr s.cfg (s.sp + BitVec.ofNat 8 k)) := by
          rw [hslot, ← hcfg]; exact h'.slots (k + m) (by omega)
      _ = s.peek (stackAddr s.cfg (s.sp + BitVec.ofNat 8 k)) := h.slots k (by omega)

theorem setPc (a : Addr) (s : State) : Descends 0 s (s.setPc a) :=
  ⟨by simp, by simp [KeepsRegs, KeepsFlags], fun _ _ => rfl⟩

theorem push (v : Byte) (s : State) : Descends 1 s (push v s) where
  sp := push_sp v s
  regs := by simp [KeepsRegs, KeepsFlags]
  slots k hk := by
    have hne : s.sp + BitVec.ofNat 8 k ≠ s.sp - 1 := by bv_omega
    rw [push_peek, if_neg (fun h => hne (stackAddr_injective h))]

theorem pushAll (vs : List Byte) (s : State) : Descends vs.length s (pushAll vs s) := by
  induction vs generalizing s with
  | nil => exact setPc s.pc s
  | cons v vs ih => exact (push v s).trans (ih _)

theorem callTo (a : Addr) (s : State) : Descends 2 s (callTo a s) :=
  ((push _ s).trans (push _ _)).trans (setPc a _)

end Descends

namespace Ascends

theorem trans {m n : Nat} {s t u : State} (h : Ascends m s t) (h' : Ascends n t u) : Ascends (n + m) s u :=
  ⟨by rw [h'.sp, h.sp, BitVec.add_assoc, Nat.add_comm, BitVec.ofNat_add], h.regs.trans h'.regs, h'.mem.trans h.mem⟩

theorem setPc (a : Addr) (s : State) : Ascends 0 s (s.setPc a) :=
  ⟨by simp, by simp [KeepsRegs, KeepsFlags], rfl⟩

theorem pull (s : State) : Ascends 1 s (pull s).2 :=
  ⟨pull_sp s, by simp [KeepsRegs, KeepsFlags], by simp⟩

theorem pullAll (k : Nat) (s : State) : Ascends k s (pullAll k s).2 := by
  induction k generalizing s with
  | zero => exact setPc s.pc s
  | succ k ih => exact (pull s).trans (ih _)

theorem returnFrom (s : State) : Ascends 2 s (returnFrom s) := ((pull s).trans (pull _)).trans (setPc _ _)

end Ascends

/-- As many pulls as pushes restore SP, and the slots the pushes did not reach hold what they held. -/
theorem Descends.ascends {n : Nat} {s t u : State} (h : Descends n s t) (h' : Ascends n t u) :
    u.sp = s.sp ∧ KeepsRegs s u ∧ ∀ k, k + n < 256 →
      u.peek (stackAddr u.cfg (u.sp + BitVec.ofNat 8 k)) = s.peek (stackAddr s.cfg (s.sp + BitVec.ofNat 8 k)) := by
  have hsp : u.sp = s.sp := by rw [h'.sp, h.sp, BitVec.sub_add_cancel]
  have hregs := h.regs.trans h'.regs
  have hcfg : u.cfg = s.cfg := hregs.2.2
  refine ⟨hsp, hregs, fun k hk => ?_⟩
  rw [hsp, hcfg, ← h.slots k hk, State.peek, h'.mem]
  rfl

/-- After as many pulls as pushes the byte on top of the stack is the one before them. -/
theorem Descends.ascends_top {n : Nat} {s t u : State} (h : Descends n s t) (h' : Ascends n t u) (hn : n < 256) :
    u.peek (stackAddr u.cfg u.sp) = s.peek (stackAddr s.cfg s.sp) := by
  obtain ⟨-, -, hslots⟩ := h.ascends h'
  simpa only [BitVec.add_zero] using hslots 0 (by rwa [Nat.zero_add])

/-! ### The stack law (20_memory.md rule R56) -/

/-- The last of `k + 1` pulls is a pull after the first `k`. -/
theorem pullAll_succ_last (k : Nat) (s : State) :
    (pullAll (k + 1) s).1 = (pullAll k s).1 ++ [(pull (pullAll k s).2).1] := by
  induction k generalizing s with
  | zero => rfl
  | succ k ih => exact congrArg ((pull s).1 :: ·) (ih (pull s).2)

/-- The first byte pushed is the last pulled: the pushes after it do not reach its slot. -/
theorem pullAll_pushAll (vs : List Byte) (s : State) (hc : StackClear s.cfg) (hlen : vs.length ≤ 256) :
    (pullAll vs.length (pushAll vs s)).1 = vs.reverse := by
  induction vs generalizing s with
  | nil => rfl
  | cons v vs ih =>
    rw [List.length_cons] at hlen
    have hc' : StackClear (push v s).cfg := by rwa [push_cfg]
    have hrest := ih (push v s) hc' (by omega)
    have hd := Descends.pushAll vs (push v s)
    have ha := Ascends.pullAll vs.length (pushAll vs (push v s))
    obtain ⟨-, ⟨-, -, hcfg⟩, -⟩ := hd.ascends ha
    have hlast : (pull (pullAll vs.length (pushAll vs (push v s))).2).1 = v := by
      rw [pull_val_of_clear (hcfg ▸ hc'), hd.ascends_top ha (by omega), push_cfg, push_sp, push_peek, if_pos rfl]
    calc (pullAll (vs.length + 1) (pushAll vs (push v s))).1
        = (pullAll vs.length (pushAll vs (push v s))).1 ++ [(pull (pullAll vs.length (pushAll vs (push v s))).2).1] :=
          pullAll_succ_last _ _
      _ = vs.reverse ++ [v] := by rw [hrest, hlast]
      _ = (v :: vs).reverse := List.reverse_cons.symm

/-! ### Nested calls (20_memory.md rules R57 and R58) -/

theorem callAll_descends (calls : List (Addr × Byte × Byte)) (s : State) :
    ∃ t, callAll calls s = .next t ∧ Descends (2 * calls.length) s t := by
  induction calls generalizing s with
  | nil => exact ⟨s, rfl, .setPc s.pc s⟩
  | cons call calls ih =>
    obtain ⟨ret, lo, hi⟩ := call
    obtain ⟨t, ht, hd⟩ := ih (callTo (cat hi lo) (s.setPc ret))
    exact ⟨t, ht, ((Descends.setPc ret s).trans (.callTo (cat hi lo) _)).trans hd⟩

theorem returnAll_ascends (k : Nat) (s : State) : ∃ t, returnAll k s = .next t ∧ Ascends (2 * k) s t := by
  induction k generalizing s with
  | zero => exact ⟨s, rfl, .setPc s.pc s⟩
  | succ k ih =>
    obtain ⟨t, ht, ha⟩ := ih (returnFrom s)
    exact ⟨t, ht, (Ascends.returnFrom s).trans ha⟩

/-- The last of `k + 1` returns is a return after the first `k`. -/
theorem returnAll_succ_last {k : Nat} {s t : State} (h : returnAll k s = .next t) :
    returnAll (k + 1) s = .next (returnFrom t) := by
  induction k generalizing s with
  | zero => cases h; rfl
  | succ k ih => exact ih h

/-- A call leaves the two bytes of its return address on the stack, the low byte on top. -/
theorem callTo_slots (a : Addr) (s : State) : let t := callTo a s
    t.peek (stackAddr t.cfg t.sp) = lo8 s.pc ∧ t.peek (stackAddr t.cfg (t.sp + 1)) = hi8 s.pc := by
  have hsp : s.sp - 1 - 1 + 1 = s.sp - 1 := BitVec.sub_add_cancel _ _
  have hne : stackAddr s.cfg (s.sp - 1) ≠ stackAddr s.cfg (s.sp - 1 - 1) := fun h => by
    have := stackAddr_injective h
    bv_omega
  simp only [callTo, State.setPc_peek, State.setPc_cfg, State.setPc_sp, push_cfg, push_sp, hsp]
  constructor
  · rw [push_peek, push_cfg, push_sp, if_pos rfl]
  · rw [push_peek, push_cfg, push_sp, if_neg hne, push_peek, if_pos rfl]

/-- A return jumps to the two bytes on top of a window without device cells. -/
theorem returnFrom_pc {s : State} (hc : StackClear s.cfg) : (returnFrom s).pc =
    cat (s.peek (stackAddr s.cfg (s.sp + 1))) (s.peek (stackAddr s.cfg s.sp)) := by
  have hc' : StackClear (pull s).2.cfg := by rwa [pull_cfg]
  have hpeek : ∀ a, (pull s).2.peek a = s.peek a := fun a => by rw [State.peek, (Ascends.pull s).mem]; rfl
  rw [returnFrom_state, State.setPc_pc, pull_val_of_clear hc, pull_val_of_clear hc', hpeek, pull_cfg, pull_sp]

/-! ### The host between steps (20_memory.md rule R59) -/

theorem pokeBytes_eq (bs : List Byte) (origin : Addr) (s : State) :
    pokeBytes bs origin s = { s with mem := (pokeBytes bs origin s).mem } := by
  induction bs generalizing origin s with
  | nil => rfl
  | cons b bs ih => exact ih (origin + 1) (s.poke origin b)

theorem pokeBytes_wf (bs : List Byte) (origin : Addr) (s : State) (h : Memory.wf s.mem = true) :
    Memory.wf (pokeBytes bs origin s).mem = true := by
  induction bs generalizing origin s with
  | nil => exact h
  | cons b bs ih => exact ih (origin + 1) (s.poke origin b) (s.poke_wf origin b h)

/-- The address of a byte of the rest of an image. -/
theorem origin_add_succ (origin : Addr) (k : Nat) :
    origin + BitVec.ofNat 16 (k + 1) = origin + 1 + BitVec.ofNat 16 k := by
  rw [BitVec.add_assoc, Nat.add_comm, BitVec.ofNat_add]
  rfl

theorem pokeBytes_peek_outside (bs : List Byte) (origin : Addr) (s : State) (a : Addr)
    (h : ∀ k, k < bs.length → a ≠ origin + BitVec.ofNat 16 k) : (pokeBytes bs origin s).peek a = s.peek a := by
  induction bs generalizing origin s with
  | nil => rfl
  | cons b bs ih =>
    have h0 : a ≠ origin := by simpa using h 0 (Nat.succ_pos _)
    have hrest : ∀ k, k < bs.length → a ≠ origin + 1 + BitVec.ofNat 16 k := fun k hk => by
      rw [← origin_add_succ]; exact h (k + 1) (Nat.succ_lt_succ hk)
    calc (pokeBytes bs (origin + 1) (s.poke origin b)).peek a
        = (s.poke origin b).peek a := ih (origin + 1) _ hrest
      _ = s.peek a := by rw [State.poke_peek, if_neg h0]

/-- Each byte of an image stands at its address unless a later one lands there. -/
theorem pokeBytes_peek_inside (bs : List Byte) (origin : Addr) (s : State) (k : Nat) (hk : k < bs.length)
    (h : ∀ j, k < j → j < bs.length → origin + BitVec.ofNat 16 j ≠ origin + BitVec.ofNat 16 k) :
    (pokeBytes bs origin s).peek (origin + BitVec.ofNat 16 k) = bs[k] := by
  induction bs generalizing origin s k with
  | nil => exact absurd hk (Nat.not_lt_zero k)
  | cons b bs ih =>
    cases k with
    | zero =>
      have hlater (j : Nat) (hj : j < bs.length) : origin + BitVec.ofNat 16 0 ≠ origin + 1 + BitVec.ofNat 16 j := by
        rw [← origin_add_succ]
        exact (h (j + 1) (Nat.succ_pos j) (Nat.succ_lt_succ hj)).symm
      rw [pokeBytes, pokeBytes_peek_outside _ _ _ _ hlater]
      simp
    | succ k =>
      rw [origin_add_succ]
      refine ih (origin + 1) _ k (Nat.lt_of_succ_lt_succ hk) fun j hkj hj => ?_
      rw [← origin_add_succ, ← origin_add_succ]
      exact h (j + 1) (Nat.succ_lt_succ hkj) (Nat.succ_lt_succ hj)

/-- No clause speaks of INPUT, and a load touches memory alone, which it keeps canonical. -/
theorem Inv.applyAct {s : State} (h : Inv s) (act : HostAct) : Inv (applyAct act s) := by
  cases act with
  | setInput v => exact ⟨h.config, h.memory, h.record, h.faultOf, h.draws, h.pixels⟩
  | load bytes origin =>
    have hmem := pokeBytes_wf bytes origin s h.memory
    rw [Machine.applyAct, hostLoad, pokeBytes_eq]
    exact ⟨h.config, hmem, h.record, h.faultOf, h.draws, h.pixels⟩

theorem Inv.applyActs {s : State} (h : Inv s) (acts : List HostAct) : Inv (applyActs acts s) := by
  induction acts generalizing s with
  | nil => exact h
  | cons act acts ih => exact ih (h.applyAct act)

/-! ### The next state of an instruction -/

/-- The state an instruction makes; `exec` answers no other (`exec_eq_execNext`). -/
def execNext (i : Instr) (s : State) : State :=
  match exec i s with
  | .next t => t
  | .fault _ => s
  | .refused _ => s

theorem exec_eq_execNext (i : Instr) (s : State) : exec i s = .next (execNext i s) := by
  obtain ⟨t, ht⟩ := exec_next i s
  rw [execNext, ht]

/-! ### Two machines that differ in the stored bytes of the device cells (20_memory.md rule R46) -/

namespace SameButDeviceBytes

variable {s t : State}

/-- Whatever does not depend on memory is the same in both. -/
theorem field (h : SameButDeviceBytes s t) {α : Type} (p : State → α)
    (hp : ∀ s : State, p { s with mem := [] } = p s := by exact fun _ => rfl) : p s = p t :=
  calc p s = p { s with mem := [] } := (hp s).symm
    _ = p { t with mem := [] } := congrArg p h.1
    _ = p t := hp t

/-- An operation that neither reads nor writes memory and keeps the parameters keeps the relation. -/
theorem map (h : SameButDeviceBytes s t) (f : State → State)
    (hcfg : ∀ s, (f s).cfg = s.cfg := by exact fun _ => rfl)
    (hmem : ∀ s m, f { s with mem := m } = { f s with mem := m } := by exact fun _ _ => rfl) :
    SameButDeviceBytes (f s) (f t) := by
  have hkeep : ∀ s, (f s).mem = s.mem := fun s => (congrArg State.mem (hmem s s.mem) :)
  refine ⟨?_, fun a hr hi => ?_⟩
  · rw [← hmem s, ← hmem t, h.1]
  · rw [hcfg] at hr hi
    simpa only [State.peek, hkeep] using h.2 a hr hi

/-- A core read never returns a byte stored at a device cell. -/
theorem coreByte (h : SameButDeviceBytes s t) (a : Addr) : coreByte a s = coreByte a t := by
  unfold Machine.coreByte
  rw [← h.field State.cfg, ← h.field State.draws, ← h.field State.input]
  by_cases hr : a = s.cfg.randomAddr
  · rw [if_pos hr, if_pos hr]
  · by_cases hi : a = s.cfg.inputAddr
    · rw [if_neg hr, if_neg hr, if_pos hi, if_pos hi]
    · rw [if_neg hr, if_neg hr, if_neg hi, if_neg hi, h.2 a hr hi]

theorem busWrite (h : SameButDeviceBytes s t) (a : Addr) (v : Byte) :
    SameButDeviceBytes (busWrite a v s) (busWrite a v t) := by
  rw [busWrite_state, busWrite_state]
  refine ⟨?_, fun b hr hi => ?_⟩
  · exact h.field fun s => { s with mem := [], trace := s.trace ++ writeEvents s.cfg a v }
  · have hb : s.peek b = t.peek b := h.2 b hr hi
    have hpoke : (s.poke a v).peek b = (t.poke a v).peek b := by rw [State.poke_peek, State.poke_peek, hb]
    exact hpoke

theorem writeReg (h : SameButDeviceBytes s t) (r : Reg) {v w : Byte} (hv : v = w) :
    SameButDeviceBytes (writeReg r v s) (writeReg r w t) := by
  subst hv
  cases r <;> exact h.map (Machine.writeReg _ v)

theorem push (h : SameButDeviceBytes s t) {v w : Byte} (hv : v = w) :
    SameButDeviceBytes (push v s) (push w t) := by
  have hslot : stackAddr s.cfg (s.sp - 1) = stackAddr t.cfg (t.sp - 1) :=
    h.field fun s => stackAddr s.cfg (s.sp - 1)
  have hwrite := (h.map fun s => s.setSp (s.sp - 1)).busWrite (stackAddr s.cfg (s.sp - 1)) v
  simpa only [Machine.push, ← hslot, ← hv] using hwrite

theorem callTo (h : SameButDeviceBytes s t) (a : Addr) : SameButDeviceBytes (callTo a s) (callTo a t) := by
  have hhi := h.push (h.field fun s => hi8 s.pc)
  have hlo := hhi.push (h.field fun s => lo8 s.pc)
  exact hlo.map (·.setPc a)

theorem branchIf (h : SameButDeviceBytes s t) {p q : Bool} (hp : p = q) (o : Byte) :
    SameButDeviceBytes (branchIf p o s) (branchIf q o t) := by
  subst hp
  cases p
  · exact h
  · exact h.map fun s => s.setPc (branchTarget o s)

end SameButDeviceBytes

/-- Two operations give the same value, in states that agree but for the bytes of the device cells. -/
def SameResults {α : Type} (p q : α × State) : Prop := p.1 = q.1 ∧ SameButDeviceBytes p.2 q.2

/-- What follows an operation may use its value: both continue with the same one. -/
theorem SameResults.bind {α : Type} {p q : α × State} (h : SameResults p q) {g : α → State → State}
    (hg : ∀ v {s t}, SameButDeviceBytes s t → SameButDeviceBytes (g v s) (g v t)) :
    SameButDeviceBytes (g p.1 p.2) (g q.1 q.2) := h.1 ▸ hg p.1 h.2

namespace SameButDeviceBytes

variable {s t : State}

theorem busRead (h : SameButDeviceBytes s t) {a b : Addr} (hab : a = b) : SameResults (busRead a s) (busRead b t) := by
  subst hab
  refine ⟨?_, ?_⟩
  · rw [busRead_val, busRead_val, h.coreByte a]
  · rw [busRead_state, busRead_state]
    exact h.map (·.note [.read a])

theorem fetch (h : SameButDeviceBytes s t) : SameResults (fetch s) (fetch t) := by
  obtain ⟨hval, hst⟩ := h.busRead (h.field State.pc)
  have hpc : s.pc + 1 = t.pc + 1 := h.field fun s => s.pc + 1
  refine ⟨hval, ?_⟩
  simpa only [Machine.fetch, ← hpc] using hst.map (·.setPc (s.pc + 1))

theorem pull (h : SameButDeviceBytes s t) : SameResults (pull s) (pull t) := by
  obtain ⟨hval, hst⟩ := h.busRead (h.field fun s => stackAddr s.cfg s.sp)
  have hsp : s.sp + 1 = t.sp + 1 := h.field fun s => s.sp + 1
  refine ⟨hval, ?_⟩
  simpa only [Machine.pull, ← hsp] using hst.map (·.setSp (s.sp + 1))

theorem returnFrom (h : SameButDeviceBytes s t) : SameButDeviceBytes (returnFrom s) (returnFrom t) :=
  h.pull.bind (g := fun lo s => (Machine.pull s).2.setPc (cat (Machine.pull s).1 lo)) fun lo _ _ h =>
    h.pull.bind (g := fun hi s => s.setPc (cat hi lo)) fun hi _ _ h => h.map (·.setPc (cat hi lo))

/-! #### Operands and shared actions -/

theorem readPointer (h : SameButDeviceBytes s t) {p q : Byte} (hp : p = q) :
    SameResults (readPointer p s) (readPointer q t) := by
  subst hp
  obtain ⟨hlo, hs⟩ := h.busRead (a := zext16 p) rfl
  obtain ⟨hhi, hs'⟩ := hs.busRead (h.field fun s => ptrHi s.cfg p)
  exact ⟨congrArg₂ cat hhi hlo, hs'⟩

theorem effAddr (h : SameButDeviceBytes s t) (f : AddrForm) : SameResults (effAddr f s) (effAddr f t) := by
  cases f with
  | zp b => exact ⟨rfl, h⟩
  | zpx b => exact ⟨h.field fun s => zext16 (b + s.x), h⟩
  | indx b => exact h.readPointer (h.field fun s => b + s.x)
  | indy b =>
    obtain ⟨hptr, hs⟩ := h.readPointer (p := b) rfl
    exact ⟨congrArg₂ (· + zext16 ·) hptr (h.field State.y), hs⟩
  | abs lo hi => exact ⟨rfl, h⟩
  | absy lo hi => exact ⟨h.field fun s => cat hi lo + zext16 s.y, h⟩

theorem opnd (h : SameButDeviceBytes s t) (src : Source) : SameResults (opnd src s) (opnd src t) := by
  cases src with
  | imm b => exact ⟨rfl, h⟩
  | mem f =>
    obtain ⟨haddr, hs⟩ := h.effAddr f
    exact hs.busRead haddr

theorem loadReg (h : SameButDeviceBytes s t) (r : Reg) (src : Source) :
    SameButDeviceBytes (loadReg r src s) (loadReg r src t) :=
  (h.opnd src).bind fun _ _ _ h => h.writeReg r rfl

theorem storeReg (h : SameButDeviceBytes s t) (r : Reg) (f : AddrForm) :
    SameButDeviceBytes (storeReg r f s) (storeReg r f t) :=
  (h.effAddr f).bind (g := fun a s => Machine.busWrite a (s.reg r) s) fun a _ _ h =>
    h.field (·.reg r) ▸ h.busWrite a _

theorem aluCarry (h : SameButDeviceBytes s t) (op : Byte → Byte → Bool → Byte × Bool) (src : Source) :
    SameButDeviceBytes (aluCarry op src s) (aluCarry op src t) :=
  (h.opnd src).bind (g := fun v s => Machine.writeReg .a (op s.a v s.c).1 (s.carryIf (op s.a v s.c).2))
    fun v _ _ h => h.map fun s => Machine.writeReg .a (op s.a v s.c).1 (s.carryIf (op s.a v s.c).2)

theorem aluLogic (h : SameButDeviceBytes s t) (op : Byte → Byte → Byte) (src : Source) :
    SameButDeviceBytes (aluLogic op src s) (aluLogic op src t) :=
  (h.opnd src).bind (g := fun v s => Machine.writeReg .a (op s.a v) s) fun v _ _ h =>
    h.map fun s => Machine.writeReg .a (op s.a v) s

theorem compareReg (h : SameButDeviceBytes s t) (r : Reg) (src : Source) :
    SameButDeviceBytes (compareReg r src s) (compareReg r src t) :=
  (h.opnd src).bind (g := fun v s => compareFlags (s.reg r) v s) fun v _ _ h =>
    h.map fun s => compareFlags (s.reg r) v s

theorem bitTest (h : SameButDeviceBytes s t) (f : AddrForm) : SameButDeviceBytes (bitTest f s) (bitTest f t) :=
  (h.opnd (.mem f)).bind (g := fun v s => bitFlags s.a v s) fun v _ _ h =>
    h.map fun s => bitFlags s.a v s

theorem stepMem (h : SameButDeviceBytes s t) (op : Byte → Byte) (f : AddrForm) :
    SameButDeviceBytes (stepMem op f s) (stepMem op f t) := by
  have hv := (h.opnd (.mem f)).1
  have ha := (h.effAddr f).1
  rw [stepMem_state, stepMem_state, ← hv, ← ha, ← opnd_state, ← opnd_state]
  exact ((h.opnd (.mem f)).2.busWrite _ _).map (setZN _)

theorem shiftMem (h : SameButDeviceBytes s t) (op : Byte → Bool → Byte × Bool) (f : AddrForm) :
    SameButDeviceBytes (shiftMem op f s) (shiftMem op f t) := by
  have hv := (h.opnd (.mem f)).1
  have ha := (h.effAddr f).1
  rw [shiftMem_state, shiftMem_state, ← hv, ← ha, ← h.field State.c, ← opnd_state, ← opnd_state]
  exact (((h.opnd (.mem f)).2.map (·.carryIf _)).busWrite _ _).map (setZN _)

/-! #### Execution, fetch and step -/

/-- Every instruction keeps the relation. -/
theorem execNext (h : SameButDeviceBytes s t) (i : Instr) : SameButDeviceBytes (execNext i s) (execNext i t) := by
  cases i with
  | ldaImm | ldaZp | ldaZpx | ldaIndx | ldaIndy | ldaAbs | ldaAbsy | ldxImm | ldxZp | ldxAbs | ldxAbsy
  | ldyImm | ldyZp | ldyZpx | ldyAbs => exact h.loadReg _ _
  | staZp | staZpx | staIndx | staIndy | staAbs | staAbsy | stxZp | stxAbs | styZp | styZpx | styAbs =>
    exact h.storeReg _ _
  | tax | tay | txa | tya | tsx | txs | inx | iny | dex | dey | aslAcc | lsrAcc | rolAcc | rorAcc | jmp | clc | sec
  | nop | brk => exact h.map (Machine.execNext _)
  | pha => exact h.push (h.field State.a)
  | pla =>
    obtain ⟨hval, hs⟩ := h.pull
    exact hs.writeReg .a hval
  | adcImm | adcZp | adcZpx | adcIndx | adcIndy | adcAbs | adcAbsy | sbcImm | sbcZp | sbcZpx | sbcIndx | sbcIndy
  | sbcAbs | sbcAbsy => exact h.aluCarry _ _
  | andImm | andZp | andZpx | andIndx | andIndy | andAbs | andAbsy | oraImm | oraZp | oraZpx | oraIndx | oraIndy
  | oraAbs | oraAbsy | eorImm | eorZp | eorZpx | eorIndx | eorIndy | eorAbs | eorAbsy =>
    exact h.aluLogic _ _
  | cmpImm | cmpZp | cmpZpx | cmpIndx | cmpIndy | cmpAbs | cmpAbsy | cpxImm | cpxZp | cpxAbs | cpyImm | cpyZp
  | cpyAbs => exact h.compareReg _ _
  | bitZp | bitAbs => exact h.bitTest _
  | incZp | incZpx | incAbs => exact h.stepMem (· + 1) _
  | decZp | decZpx | decAbs => exact h.stepMem (· - 1) _
  | aslZp | aslZpx | aslAbs | lsrZp | lsrZpx | lsrAbs | rolZp | rolZpx | rolAbs | rorZp | rorZpx | rorAbs =>
    exact h.shiftMem _ _
  | jsr => exact h.callTo _
  | rts => exact h.returnFrom
  | bpl o => exact h.branchIf (h.field fun s => !s.n) o
  | bmi o => exact h.branchIf (h.field fun s => s.n) o
  | bcc o => exact h.branchIf (h.field fun s => !s.c) o
  | bcs o => exact h.branchIf (h.field fun s => s.c) o
  | bne o => exact h.branchIf (h.field fun s => !s.z) o
  | beq o => exact h.branchIf (h.field fun s => s.z) o

theorem fetchBytes (h : SameButDeviceBytes s t) (k : Nat) : SameResults (fetchBytes k s) (fetchBytes k t) := by
  induction k generalizing s t with
  | zero => exact ⟨rfl, h⟩
  | succ k ih =>
    obtain ⟨hb, hs⟩ := h.fetch
    obtain ⟨hbs, hs'⟩ := ih hs
    exact ⟨congrArg₂ List.cons hb hbs, hs'⟩

theorem fetchInstr (h : SameButDeviceBytes s t) : SameResults (fetchInstr s) (fetchInstr t) := by
  obtain ⟨hop, hs⟩ := h.fetch
  simp only [Machine.fetchInstr, ← h.field State.cfg, ← hop]
  cases lookup s.cfg.table (Machine.fetch s).1 with
  | none => exact ⟨rfl, hs⟩
  | some d =>
    obtain ⟨hbs, hs'⟩ := hs.fetchBytes d.mode.operandBytes
    exact ⟨by simp only [hbs], hs'⟩

theorem step {s' : State} (h : SameButDeviceBytes s t) (hs : step s = .next s') :
    ∃ t', step t = .next t' ∧ SameButDeviceBytes s' t' := by
  have hrun : s.runState = t.runState := h.field State.runState
  have hcfg : s.cfg = t.cfg := h.field State.cfg
  have hfetch := h.fetchInstr
  unfold Machine.step at hs ⊢
  rw [← hrun, ← hcfg]
  cases hr : s.runState with
  | halted | faulted =>
    rw [hr] at hs
    cases hs
    exact ⟨t, rfl, h⟩
  | running =>
    rw [hr] at hs
    by_cases hw : s.cfg.wf = true
    · simp only [hw, if_true] at hs ⊢
      generalize Machine.fetchInstr s = p, Machine.fetchInstr t = q at hfetch hs ⊢
      obtain ⟨r, s1⟩ := p
      obtain ⟨r', t1⟩ := q
      obtain ⟨rfl, h1⟩ := hfetch
      cases r with
      | ok i =>
        simp only [exec_eq_execNext, Host.Outcome.next.injEq] at hs
        exact ⟨_, exec_eq_execNext i t1, hs ▸ h1.execNext i⟩
      | error e =>
        cases e with
        | unknownOpcode op =>
          cases hs
          exact ⟨_, rfl, h1.map (raiseUnknownOpcode op)⟩
        | notAdmitted | truncated => cases hs
    · simp [hw] at hs

end SameButDeviceBytes

end Sys2Proof.Machine

open Sys2Proof Sys2Proof.Machine

/-- Settles O13: every operation keeps the relation, since a core read never returns a byte stored at a device cell. -/
theorem deviceCellBytesNeverLeak : Obligations.DeviceCellBytesNeverLeak := fun _ _ _ h hs => h.step hs

/-- Settles O17: the bytes by induction on the pushes, SP because as many pulls as pushes restore it. -/
theorem stackLaw : Obligations.StackLaw := fun s vs hc hlen =>
  ⟨pullAll_pushAll vs s hc hlen, ((Descends.pushAll vs s).ascends (Ascends.pullAll vs.length _)).1⟩

/-- Settles O18: the inner calls do not reach the outermost one's two bytes, so the last return pulls its address. -/
theorem nestedCallsReturnToTheOutermost : Obligations.NestedCallsReturnToTheOutermost := by
  intro s ret lo hi calls hc hlen
  have hcall : Descends 2 s (callTo (cat hi lo) (s.setPc ret)) := (Descends.setPc ret s).trans (.callTo _ _)
  obtain ⟨-, -, hcfg⟩ := hcall.regs
  obtain ⟨u, hu, hd⟩ := callAll_descends calls (callTo (cat hi lo) (s.setPc ret))
  obtain ⟨v, hv, ha⟩ := returnAll_ascends calls.length u
  obtain ⟨-, ⟨-, -, hcfg'⟩, hslots⟩ := hd.ascends ha
  obtain ⟨hcall_lo, hcall_hi⟩ := callTo_slots (cat hi lo) (s.setPc ret)
  have hlo : v.peek (stackAddr v.cfg v.sp) = lo8 ret := (hd.ascends_top ha (by omega)).trans hcall_lo
  have hhi : v.peek (stackAddr v.cfg (v.sp + 1)) = hi8 ret := (hslots 1 (by omega)).trans hcall_hi
  have hpc : (returnFrom v).pc = ret := by
    rw [returnFrom_pc (by rwa [hcfg', hcfg]), hlo, hhi, cat_hi8_lo8]
  have hback : Ascends (2 * calls.length + 2) u (returnFrom v) := Nat.add_comm 2 _ ▸ ha.trans (.returnFrom v)
  obtain ⟨hsp, ⟨hreg, hflags, -⟩, -⟩ := (hcall.trans hd).ascends hback
  exact ⟨u, returnFrom v, hu, returnAll_succ_last hv, hpc, hsp, hreg .a, hreg .x, hreg .y, hflags⟩

/-- Settles O19: by induction on the image, `pokeBytes` says what each address holds. -/
theorem loadInstallsTheImage : Obligations.LoadInstallsTheImage := fun s bytes origin =>
  ⟨pokeBytes_peek_inside bytes origin s, pokeBytes_peek_outside bytes origin s, pokeBytes_eq bytes origin s⟩

/-- Settles O35: a load is a run of raw stores and the latch is in no clause, so each act keeps every clause. -/
theorem hostActsKeepTheInvariant : Obligations.HostActsKeepTheInvariant := fun acts _ h => h.applyActs acts

/-- Settles O10: the value is `coreByte`, the state that of one noted read. -/
theorem coreReadFollowsTheMemoryMap : Obligations.CoreReadFollowsTheMemoryMap := by
  intro a s
  refine ⟨busRead_val a s, ?_, fun ha => ?_⟩
  · rw [busRead_state, State.note, drawsIn_read]
    split <;> rfl
  · rw [busRead_val, busRead_state, coreByte, State.note_cfg, if_pos ha, State.note_draws, drawsIn_read, if_pos ha]
    rfl

/-- Settles O11: a write is a raw store with its events, and no output cell of a well-formed configuration is a device
cell. -/
theorem coreWriteStoresAndEmits : Obligations.CoreWriteStoresAndEmits := by
  intro a v s
  refine ⟨busWrite_peek a v s, by rw [busWrite_state]; rfl, ?_, fun hw hlo hhi => ?_⟩
  · rw [busWrite_state, writeEvents, if_congr (s.cfg.inOutput_iff a) rfl rfl]
    split <;> rfl
  · obtain ⟨hr, hi⟩ := Config.ne_cells_of_inOutput hw ((s.cfg.inOutput_iff a).mpr ⟨hlo, hhi⟩)
    rw [busRead_val, coreByte_of_clear (by rwa [busWrite_cfg]) (by rwa [busWrite_cfg]), busWrite_peek, if_pos rfl]

/-- Settles O12: the store is raw, and neither the draw count nor INPUT depends on it. -/
theorem writtenDeviceCellsReadTheDevice : Obligations.WrittenDeviceCellsReadTheDevice := by
  intro v s
  have hshown : ∀ a, inspectMem (busWrite a v s) a = v := fun a => (busWrite_peek a v s a).trans (if_pos rfl)
  refine ⟨hshown _, hshown _, ?_, fun hne => ?_⟩
  · simp [busRead_val, coreByte]
  · simp [busRead_val, coreByte, hne.symm]

/-- Settles O14: a fetch is a core read at PC, then an update of PC. -/
theorem fetchReadsAtPcAndAdvances : Obligations.FetchReadsAtPcAndAdvances := by
  intro s
  refine ⟨busRead_val s.pc s, ?_, fetch_state s⟩
  rw [fetch_state, State.setPc_pc]
  exact BitVec.toNat_add s.pc 1

/-- Settles O16: each is one bus access at the slot and an update of SP. -/
theorem pushAndPullMoveOneByte : Obligations.PushAndPullMoveOneByte := by
  intro v s
  refine ⟨?_, ?_, ?_, ?_, pull_val s, ?_, ?_⟩
  · simp [stackAddr, zext16]
  · rw [push_sp]; bv_omega
  · rw [push_sp]; exact push_peek v s
  · rw [push_sp, push_state]; rfl
  · rw [pull_sp]; exact BitVec.toNat_add s.sp 1
  · rw [pull_sp, pull_state]

end

section
/-! Encoding and decoding (30_encoding.md). `decode_eq_ok_iff` says once which bytes decode to an instruction: an opcode
byte the table maps to its descriptor, its operand bytes, and any rest. Both directions between encoder and decoder are
uses of it. -/

namespace Sys2Proof

/-! ### Operand bytes and the instruction they build (30_encoding.md rules R67, R68 and R71) -/

namespace Laws.Encoding

/-- The family as one lemma. -/
theorem statement_of_instr (i : Instr) : Statement i := by
  cases i <;> simp only [ldaImm, ldaZp, ldaZpx, ldaIndx, ldaIndy, ldaAbs, ldaAbsy, ldxImm, ldxZp, ldxAbs, ldxAbsy,
    ldyImm, ldyZp, ldyZpx, ldyAbs, staZp, staZpx, staIndx, staIndy, staAbs, staAbsy, stxZp, stxAbs, styZp, styZpx,
    styAbs, tax, tay, txa, tya, tsx, txs, pha, pla, adcImm, adcZp, adcZpx, adcIndx, adcIndy, adcAbs, adcAbsy, sbcImm,
    sbcZp, sbcZpx, sbcIndx, sbcIndy, sbcAbs, sbcAbsy, andImm, andZp, andZpx, andIndx, andIndy, andAbs, andAbsy, oraImm,
    oraZp, oraZpx, oraIndx, oraIndy, oraAbs, oraAbsy, eorImm, eorZp, eorZpx, eorIndx, eorIndy, eorAbs, eorAbsy, cmpImm,
    cmpZp, cmpZpx, cmpIndx, cmpIndy, cmpAbs, cmpAbsy, cpxImm, cpxZp, cpxAbs, cpyImm, cpyZp, cpyAbs, bitZp, bitAbs,
    incZp, incZpx, incAbs, decZp, decZpx, decAbs, inx, iny, dex, dey, aslAcc, aslZp, aslZpx, aslAbs, lsrAcc, lsrZp,
    lsrZpx, lsrAbs, rolAcc, rolZp, rolZpx, rolAbs, rorAcc, rorZp, rorZpx, rorAbs, jmp, jsr, rts, bpl, bmi, bcc, bcs,
    bne, beq, clc, sec, nop, brk]

end Laws.Encoding

/-- The default table gives each instruction's opcode the instruction's own descriptor. -/
theorem lookup_defaultTable_opcode (i : Instr) : lookup defaultTable i.opcode = some i.desc :=
  (Laws.Encoding.statement_of_instr i).1

theorem Instr.operands_length (i : Instr) : i.operands.length = i.desc.mode.operandBytes :=
  (Laws.Encoding.statement_of_instr i).2.1

/-- The operand bytes of an instruction, taken from the front of a list, rebuild it. -/
theorem Instr.build_of_operands (i : Instr) (rest : List Byte) :
    ∃ b0 b1, takeOperands i.desc.mode.operandBytes (i.operands ++ rest) = some (b0, b1, rest) ∧
      Instr.build i.desc.mnemonic i.desc.mode b0 b1 = some i := by
  obtain ⟨-, -, hbuild⟩ := Laws.Encoding.statement_of_instr i
  obtain ⟨⟨b0, b1, tail⟩, ht, hi⟩ := Option.bind_eq_some_iff.mp (hbuild rest)
  obtain ⟨j, hj, hji⟩ := Option.map_eq_some_iff.mp hi
  obtain ⟨rfl, rfl⟩ := Prod.mk.inj hji
  exact ⟨b0, b1, ht, hj⟩

/-- No mode takes more than two operand bytes. -/
theorem takeOperands_of_two (d : Mode) (b0 b1 : Byte) (bs : List Byte) :
    ∃ p, takeOperands d.operandBytes (b0 :: b1 :: bs) = some p := by
  cases d <;> exact ⟨_, rfl⟩

/-- An admitted pair builds an instruction from any operand bytes (30_encoding.md rule R74). -/
theorem Instr.build_of_admitted {d : Descriptor} (h : d.admitted = true) (b0 b1 : Byte) :
    ∃ i, Instr.build d.mnemonic d.mode b0 b1 = some i :=
  Option.isSome_iff_exists.mp ((Instr.build_isSome d.mnemonic d.mode b0 b1).trans h)

/-! ### Lookup (30_encoding.md rules R69 and R70) -/

/-- An opcode byte has no entry exactly if it is the opcode of no row. -/
theorem lookup_eq_none_iff {t : OpcodeTable} {op : Byte} : lookup t op = none ↔ op ∉ t.map OpcodeRow.opcode := by
  simp only [lookup, Option.map_eq_none_iff, List.find?_eq_none, beq_iff_eq, List.mem_map, not_exists, not_and]

/-- In a rising table lookup finds each row by its opcode. -/
theorem lookup_of_mem {t : OpcodeTable} (ht : t.rising = true) {r : OpcodeRow} (hr : r ∈ t) :
    lookup t r.opcode = some r.desc := by
  cases hf : t.find? (fun q => q.opcode == r.opcode) with
  | none => exact absurd (beq_self_eq_true r.opcode) (List.find?_eq_none.mp hf r hr)
  | some q =>
    have hop : q.opcode = r.opcode := by simpa using List.find?_some hf
    rw [lookup, hf, OpcodeTable.row_unique ht (List.mem_of_find?_eq_some hf) hr hop, Option.map_some]

/-- The encoder gives an instruction with an entry the opcode of a row with its descriptor. -/
theorem encodeIn_of_wf {t : OpcodeTable} {i : Instr} (hi : i.wf t = true) :
    ∃ r ∈ t, r.desc = i.desc ∧ encodeIn t i = some (r.opcode :: i.operands) := by
  obtain ⟨r, hf⟩ := Option.isSome_iff_exists.mp (List.find?_isSome.mpr (List.any_eq_true.mp hi))
  have hdesc : r.desc = i.desc := by simpa using List.find?_some hf
  exact ⟨r, List.mem_of_find?_eq_some hf, hdesc, by rw [encodeIn, hf, Option.map_some]⟩

/-! ### Decoding (30_encoding.md rules R67, R69, R74 and R75) -/

/-- A byte with no entry is refused by name, whatever follows it. -/
theorem decode_unknown {t : OpcodeTable} {op : Byte} (h : lookup t op = none) (bs : List Byte) :
    decode t (op :: bs) = .error (.unknownOpcode op) := by
  simp only [decode, h]

/-- With an entry, enough bytes and an admitted pair, decoding answers the built instruction. -/
theorem decode_known {t : OpcodeTable} {op b0 b1 : Byte} {bs rest : List Byte} {d : Descriptor} {i : Instr}
    (hl : lookup t op = some d) (ht : takeOperands d.mode.operandBytes bs = some (b0, b1, rest))
    (hi : Instr.build d.mnemonic d.mode b0 b1 = some i) : decode t (op :: bs) = .ok (i, rest) := by
  simp only [decode, hl, ht, hi]

/-- The bytes that decode to an instruction under a table: no bit of them is dropped and none is free. -/
theorem decode_eq_ok_iff {t : OpcodeTable} {bs rest : List Byte} {i : Instr} :
    decode t bs = .ok (i, rest) ↔ ∃ op, bs = op :: (i.operands ++ rest) ∧ lookup t op = some i.desc := by
  constructor
  · intro h
    cases bs with
    | nil => cases h
    | cons op bs =>
      simp only [decode] at h
      split at h
      · cases h
      next d hl =>
      split at h
      · cases h
      next b0 b1 tail ht =>
      split at h
      · cases h
      next j hj =>
      cases h
      exact ⟨op, by rw [Instr.build_operands ht hj], by rw [hl, Instr.build_desc hj]⟩
  · rintro ⟨op, rfl, hl⟩
    obtain ⟨b0, b1, ht, hi⟩ := i.build_of_operands rest
    exact decode_known hl ht hi

end Sys2Proof

open Sys2Proof Sys2Proof.Machine

/-- Settles O3: the row the encoder picks is the one lookup finds, since the opcodes of the table rise. -/
theorem decodeOfEncodeUnderAnyTable : Obligations.DecodeOfEncodeUnderAnyTable := by
  intro t i ht hi
  have hrising := (Bool.and_eq_true_iff.mp ht).1
  obtain ⟨r, hr, hdesc, henc⟩ := encodeIn_of_wf hi
  refine ⟨r.opcode :: i.operands, henc, ?_, fun rest => ?_⟩
  · rw [List.length_cons, i.operands_length, Instr.length, Mode.length, Nat.add_comm]
  · exact decode_eq_ok_iff.mpr ⟨r.opcode, rfl, hdesc ▸ lookup_of_mem hrising hr⟩

/-- Settles O4: one direction of the characterisation of decoding. -/
theorem decodedBytesAreTheEncoding : Obligations.DecodedBytesAreTheEncoding :=
  fun _ _ _ _ h => decode_eq_ok_iff.mp h

/-- Settles O5: three bytes suffice for every mode, and the entries of an admissible table are admitted pairs. -/
theorem decodeIsTotal : Obligations.DecodeIsTotal := by
  intro t op b0 b1 bs hw
  cases hl : lookup t op with
  | none => exact .inr ⟨rfl, decode_unknown hl _⟩
  | some d =>
    obtain ⟨⟨c0, c1, rest⟩, ht⟩ := takeOperands_of_two d.mode b0 b1 bs
    obtain ⟨i, hi⟩ := Instr.build_of_admitted (lookup_admitted hw hl) c0 c1
    exact .inl ⟨i, rest, decode_known hl ht hi⟩

/-- Settles O1: each word is closed, and the decoder evaluates on it. -/
theorem wordsOfTheSpecDecode : Obligations.WordsOfTheSpecDecode :=
  ⟨rfl, rfl, rfl, rfl, rfl, rfl, rfl, rfl, rfl, rfl, rfl, rfl, rfl, rfl⟩

/-- Settles O2: a finite comparison of the table's opcodes with the two lists; the refusal follows from the missing
entry. -/
theorem reservedOpcodesAreUnknown : Obligations.ReservedOpcodesAreUnknown := by
  have hreserved : ∀ op : Byte,
      lookup defaultTable op = none ↔ op ∈ refusedOfficial ++ refusedUndocumented := by
    simp only [lookup_eq_none_iff]
    decide
  exact ⟨rfl, rfl, rfl, hreserved, fun op hop bs => decode_unknown ((hreserved op).mpr hop) bs⟩

/-- Settles O59: the default table's row for each instruction is its own. -/
theorem defaultTableDecodesEveryInstruction : Obligations.DefaultTableDecodesEveryInstruction :=
  fun i _ => ⟨lookup_defaultTable_opcode i, decode_eq_ok_iff.mpr ⟨i.opcode, rfl, lookup_defaultTable_opcode i⟩⟩

end

section
/-! The step and the addressing forms (40_step_and_addressing.md). `step_of_fetched` says which instruction a step runs,
`Acts.pc_cases` when an instruction moves PC, and `Acts.busCount_trace` how many bus accesses it makes. -/

namespace Sys2Proof

/-! ### Instructions and the bytes that make them (30_encoding.md rules R68 and R71) -/

/-- The descriptor and the operand bytes determine the instruction. -/
theorem Instr.ext_of_operands {i j : Instr} (hd : i.desc = j.desc) (ho : i.operands = j.operands) : i = j := by
  obtain ⟨b0, b1, ht, hi⟩ := i.build_of_operands []
  obtain ⟨c0, c1, hu, hj⟩ := j.build_of_operands []
  rw [← hd, ← ho, ht] at hu
  cases hu
  rw [← hd, hi] at hj
  exact Option.some.inj hj

/-- No mode takes more than two operand bytes (30_encoding.md rule R68). -/
theorem Instr.length_le_three (i : Instr) : i.length ≤ 3 := by
  rw [Instr.length]
  cases i.desc.mode <;> decide

theorem Instr.length_eq (i : Instr) : i.length = i.operands.length + 1 := by
  rw [i.operands_length, Instr.length, Mode.length, Nat.add_comm]

end Sys2Proof

namespace Sys2Proof.Machine

/-! ### Fetching (20_memory.md rule R49) -/

/-- The opcode byte is what a core read of PC returns. -/
theorem fetch_val (s : State) : (fetch s).1 = coreByte s.pc s := busRead_val s.pc s

/-- No byte of the `k` from PC on is a device cell. -/
def FetchClear (k : Nat) (s : State) : Prop :=
  ∀ j, j < k → s.pc + BitVec.ofNat 16 j ≠ s.cfg.randomAddr ∧ s.pc + BitVec.ofNat 16 j ≠ s.cfg.inputAddr

theorem FetchClear.pc {k : Nat} {s : State} (h : FetchClear (k + 1) s) :
    s.pc ≠ s.cfg.randomAddr ∧ s.pc ≠ s.cfg.inputAddr := by
  simpa using h 0 (Nat.succ_pos k)

theorem FetchClear.fetch {k : Nat} {s : State} (h : FetchClear (k + 1) s) : FetchClear k (fetch s).2 := by
  intro j hj
  rw [fetch_state, State.setPc_pc, ← origin_add_succ]
  exact h (j + 1) (Nat.succ_lt_succ hj)

/-- The `k` bytes memory holds from PC on. -/
def storedBytes (k : Nat) (s : State) : List Byte := (List.range k).map fun j => s.peek (s.pc + BitVec.ofNat 16 j)

theorem storedBytes_succ (k : Nat) (s : State) : storedBytes (k + 1) s = s.peek s.pc :: storedBytes k (fetch s).2 := by
  have hnext : ∀ j, s.peek (s.pc + BitVec.ofNat 16 (j + 1)) = (fetch s).2.peek ((fetch s).2.pc + BitVec.ofNat 16 j) :=
    fun j => by rw [fetch_state, origin_add_succ]; rfl
  simp [storedBytes, List.range_succ_eq_map, hnext]

theorem storedBytes_three (s : State) : storedBytes 3 s = [s.peek s.pc, s.peek (s.pc + 1), s.peek (s.pc + 2)] := by
  simp [storedBytes, List.range_succ]

theorem take_storedBytes {k n : Nat} (h : k ≤ n) (s : State) : (storedBytes n s).take k = storedBytes k s := by
  rw [storedBytes, ← List.map_take, List.take_range, Nat.min_eq_left h, storedBytes]

/-- Off the device cells the bytes fetched are the bytes stored (20_memory.md rule R45). -/
theorem fetchBytes_val_of_clear {k : Nat} {s : State} (h : FetchClear k s) : (fetchBytes k s).1 = storedBytes k s := by
  induction k generalizing s with
  | zero => rfl
  | succ k ih =>
    have hop : (fetch s).1 = s.peek s.pc := (fetch_val s).trans (coreByte_of_clear h.pc.1 h.pc.2)
    rw [fetchBytes, hop, ih h.fetch, storedBytes_succ]

/-- A fetch off RANDOM_ADDR draws nothing (20_memory.md rule R42). -/
theorem drawsIn_fetchEvents_of_clear {k : Nat} {s : State} (h : FetchClear k s) :
    drawsIn s.cfg (fetchEvents k s.pc) = 0 := by
  induction k generalizing s with
  | zero => rfl
  | succ k ih =>
    have hrest := ih h.fetch
    rw [fetch_state, State.setPc_pc, State.setPc_cfg, State.note_cfg] at hrest
    rw [fetchEvents, drawsIn_read, if_neg h.pc.1, hrest]

@[simp] theorem busCount_fetchEvents (k : Nat) (pc : Addr) : busCount (fetchEvents k pc) = k := by
  induction k generalizing pc with
  | zero => rfl
  | succ k ih => rw [fetchEvents, busCount_read, ih]

/-! ### The step and the run (40_step_and_addressing.md rules R78 to R80) -/

/-- In HALTED and FAULTED a step stands still (rule R79). -/
theorem step_of_stopped {s : State} (h : s.runState ≠ .running) : step s = .next s := by
  cases hr : s.runState with
  | running => exact absurd hr h
  | halted | faulted => simp only [step, hr]

/-- A step runs the instruction whose opcode and operand bytes are the ones fetched. -/
theorem step_of_fetched {s : State} {i : Instr} {op : Byte} (hr : s.runState = .running) (hw : s.cfg.wf = true)
    (hl : lookup s.cfg.table op = some i.desc) (hb : (fetchBytes i.length s).1 = op :: i.operands) :
    step s = exec i ((s.note (fetchEvents i.length s.pc)).setPc (s.pc + BitVec.ofNat 16 i.length)) := by
  rw [i.length_eq, fetchBytes] at hb
  obtain ⟨hop, hops⟩ := List.cons.inj hb
  rw [← hop] at hl
  rcases step_cases s hr hw with ⟨hnone, -⟩ | ⟨j, hj, ho, hs⟩
  · rw [hl] at hnone
    cases hnone
  · have hd : j.desc = i.desc := Option.some.inj (hj.symm.trans hl)
    rw [hd, ← i.operands_length, hops] at ho
    rwa [Instr.ext_of_operands hd ho] at hs

/-- A run that starts outside RUNNING has ended (rule R80). -/
theorem run_of_stopped {s : State} (h : s.runState ≠ .running) (k : Nat) : run k s = .next s := by
  cases k with
  | zero => rfl
  | succ k => rw [run, if_neg h]

/-- The first step of a run that takes one and ends in a state. -/
theorem run_succ_next {k : Nat} {s t : State} (hr : s.runState = .running) :
    run (k + 1) s = .next t ↔ ∃ u, step s = .next u ∧ run k u = .next t := by
  rw [run, if_pos hr]
  cases step s with
  | next u => simp
  | fault r => cases r
  | refused r => simp

/-! ### Where PC goes (10_state.md rule R28) -/

/-- The branches of 43_control.md rules R140 to R145 with the value of each one's predicate. -/
def branchTests (s : State) : List (Mnemonic × Bool) :=
  [(.bpl, !s.n), (.bmi, s.n), (.bcc, !s.c), (.bcs, s.c), (.bne, !s.z), (.beq, s.z)]

/-- The mnemonics of the branches. -/
def branchMnemonics : List Mnemonic := [.bpl, .bmi, .bcc, .bcs, .bne, .beq]

theorem mem_branchMnemonics {s : State} {m : Mnemonic} {p : Bool} (h : (m, p) ∈ branchTests s) :
    m ∈ branchMnemonics :=
  List.mem_map_of_mem (f := Prod.fst) h

/-- Only a jump, a call, a return and a taken branch move PC. -/
theorem Acts.pc_cases {s t : State} {i : Instr} (h : Acts s i t) :
    t.pc = s.pc ∨ i.desc.mnemonic ∈ [.jmp, .jsr, .rts] ∨ (i.desc.mnemonic, true) ∈ branchTests s := by
  cases h with
  | jmp | jsr | rts => exact .inr (.inl (by simp [Instr.desc]))
  | branch p o hm =>
    cases p with
    | false => exact .inl rfl
    | true => exact .inr (.inr hm)
  | _ => exact .inl (by simp)

/-- A branch that is not taken, flag by flag (43_control.md rules R140 to R145). -/
theorem untaken_mem_branchTests {s : State} {m : Mnemonic}
    (h : m = .bne ∧ s.z = true ∨ m = .beq ∧ s.z = false ∨ m = .bcc ∧ s.c = true ∨ m = .bcs ∧ s.c = false ∨
      m = .bpl ∧ s.n = true ∨ m = .bmi ∧ s.n = false) : (m, false) ∈ branchTests s := by
  rcases h with ⟨rfl, hf⟩ | ⟨rfl, hf⟩ | ⟨rfl, hf⟩ | ⟨rfl, hf⟩ | ⟨rfl, hf⟩ | ⟨rfl, hf⟩ <;>
    simp [branchTests, hf]

/-- Each branch has one predicate. -/
theorem branchTests_unique {s : State} {m : Mnemonic} {p q : Bool} (hp : (m, p) ∈ branchTests s)
    (hq : (m, q) ∈ branchTests s) : p = q := by
  have hnodup : ((branchTests s).map Prod.fst).Nodup := (by decide : branchMnemonics.Nodup)
  exact congrArg Prod.snd (List.inj_on_of_nodup_map hnodup hp hq rfl)

/-! ### Bus accesses (40_step_and_addressing.md rule R82) -/

@[simp] theorem writeReg_trace (r : Reg) (v : Byte) (s : State) : (writeReg r v s).trace = s.trace := by
  simp [writeReg_state]

@[simp] theorem busWrite_trace (a : Addr) (v : Byte) (s : State) :
    (busWrite a v s).trace = s.trace ++ writeEvents s.cfg a v := by
  rw [busWrite_state]

@[simp] theorem push_trace (v : Byte) (s : State) :
    (push v s).trace = s.trace ++ writeEvents s.cfg (stackAddr s.cfg (s.sp - 1)) v := by
  rw [push_state]

@[simp] theorem pull_trace (s : State) : (pull s).2.trace = s.trace ++ [.read (stackAddr s.cfg s.sp)] := by
  rw [pull_state]; rfl

@[simp] theorem loadReg_trace (r : Reg) (src : Source) (s : State) :
    (loadReg r src s).trace = s.trace ++ src.events s := by
  simp [loadReg_state]

@[simp] theorem storeReg_trace (r : Reg) (f : AddrForm) (s : State) :
    (storeReg r f s).trace = s.trace ++ (f.pointerEvents s ++ writeEvents s.cfg (effAddr f s).1 (s.reg r)) := by
  simp [storeReg_state]

@[simp] theorem aluCarry_trace (op : Byte → Byte → Bool → Byte × Bool) (src : Source) (s : State) :
    (aluCarry op src s).trace = s.trace ++ src.events s := by
  simp [aluCarry_state]

@[simp] theorem aluLogic_trace (op : Byte → Byte → Byte) (src : Source) (s : State) :
    (aluLogic op src s).trace = s.trace ++ src.events s := by
  simp [aluLogic_state]

@[simp] theorem compareReg_trace (r : Reg) (src : Source) (s : State) :
    (compareReg r src s).trace = s.trace ++ src.events s := by
  simp [compareReg_state, compareFlags, setZN]

@[simp] theorem bitTest_trace (f : AddrForm) (s : State) :
    (bitTest f s).trace = s.trace ++ (Source.mem f).events s := by
  simp [bitTest_state, bitFlags]

@[simp] theorem stepMem_trace (op : Byte → Byte) (f : AddrForm) (s : State) :
    (stepMem op f s).trace = s.trace ++ ((Source.mem f).events s ++
      writeEvents s.cfg (effAddr f s).1 (op (opnd (.mem f) s).1)) := by
  simp [stepMem_state, setZN]

@[simp] theorem shiftMem_trace (op : Byte → Bool → Byte × Bool) (f : AddrForm) (s : State) :
    (shiftMem op f s).trace = s.trace ++ ((Source.mem f).events s ++
      writeEvents s.cfg (effAddr f s).1 (op (opnd (.mem f) s).1 s.c).1) := by
  simp [shiftMem_state, setZN]

@[simp] theorem shiftAcc_trace (op : Byte → Bool → Byte × Bool) (s : State) : (shiftAcc op s).trace = s.trace := by
  simp [shiftAcc]

@[simp] theorem branchIf_trace (p : Bool) (o : Byte) (s : State) : (branchIf p o s).trace = s.trace := by
  cases p <;> rfl

/-! #### By the descriptor -/

/-- The modes without a memory operand. -/
def plainModes : List Mode := [.imp, .imm, .rel]

/-- The mnemonics that access the stack, or use an address as it stands and not the byte there. -/
def offOperand : List Mnemonic := [.jsr, .rts, .pha, .pla, .jmp]

/-- The mnemonics that read and write a memory operand. -/
def readModifyWriters : List Mnemonic := [.inc, .dec, .asl, .lsr, .rol, .ror]

theorem AddrForm.mode_not_plain (f : AddrForm) : f.mode ∉ plainModes := by
  cases f <;> simp [AddrForm.mode, plainModes]

theorem AddrForm.busCount_pointerEvents (f : AddrForm) (s : State) :
    busCount (f.pointerEvents s) = pointerReads f.mode := by
  cases f <;> rfl

/-- The data accesses to an operand. -/
theorem dataAccesses_of_operand {d : Descriptor} (hm : d.mnemonic ∉ offOperand) :
    dataAccesses d = if d.mode ∈ plainModes then 0 else if d.mnemonic ∈ readModifyWriters then 2 else 1 := by
  simp only [offOperand, List.mem_cons, List.not_mem_nil, or_false, not_or] at hm
  simp [dataAccesses, plainModes, readModifyWriters, hm]

/-- Without a memory operand there is none, and no pointer read. -/
theorem accesses_of_plain {d : Descriptor} (hm : d.mnemonic ∉ offOperand) (hd : d.mode ∈ plainModes) :
    pointerReads d.mode + dataAccesses d = 0 := by
  rw [dataAccesses_of_operand hm, if_pos hd]
  revert hd
  cases d.mode <;> decide

/-- Reading an operand makes exactly the accesses of its mode. -/
theorem Source.busCount_events {d : Descriptor} (src : Source) (s : State)
    (hm : d.mnemonic ∉ offOperand ++ readModifyWriters) (hd : d.mode = src.mode) :
    busCount (src.events s) = pointerReads d.mode + dataAccesses d := by
  obtain ⟨hoff, hrmw⟩ := not_or.mp (mt List.mem_append.mpr hm)
  cases src with
  | imm b => exact (accesses_of_plain hoff (hd ▸ (by decide : Mode.imm ∈ plainModes))).symm
  | mem f =>
    rw [dataAccesses_of_operand hoff, hd, Source.mode, if_neg f.mode_not_plain, if_neg hrmw, Source.events,
      busCount_append, f.busCount_pointerEvents]
    rfl

/-- Writing a memory operand makes as many as reading it. -/
theorem busCount_store {d : Descriptor} (f : AddrForm) (v : Byte) (s : State)
    (hm : d.mnemonic ∉ offOperand ++ readModifyWriters) (hd : d.mode = f.mode) :
    busCount (f.pointerEvents s ++ writeEvents s.cfg (effAddr f s).1 v) = pointerReads d.mode + dataAccesses d := by
  rw [← (Source.mem f).busCount_events s hm hd, Source.events, busCount_append, busCount_append,
    busCount_writeEvents]
  rfl

/-- Reading a memory operand and writing it back makes one access more. -/
theorem busCount_readModifyWrite {d : Descriptor} (f : AddrForm) (v : Byte) (s : State)
    (hm : d.mnemonic ∈ readModifyWriters) (hd : d.mode = f.mode) :
    busCount ((Source.mem f).events s ++ writeEvents s.cfg (effAddr f s).1 v) =
      pointerReads d.mode + dataAccesses d := by
  rw [dataAccesses_of_operand (not_mem_of_mem_disjoint hm), hd, if_neg f.mode_not_plain, if_pos hm, busCount_append,
    busCount_writeEvents, Source.events, busCount_append, f.busCount_pointerEvents]
  rfl

/-- After the fetch an instruction makes its pointer reads and its data accesses. -/
theorem Acts.busCount_trace {s t : State} {i : Instr} (h : Acts s i t) :
    busCount t.trace = busCount s.trace + (pointerReads i.desc.mode + dataAccesses i.desc) := by
  cases h with
  | load _ src hm hd | carry _ src hm hd | logic _ src hm hd | compare _ src hm hd =>
    simp only [loadReg_trace, aluCarry_trace, aluLogic_trace, compareReg_trace, busCount_append,
      src.busCount_events s (not_mem_of_mem_disjoint hm) hd]
  | bit f hm hd =>
    rw [bitTest_trace, busCount_append, (Source.mem f).busCount_events s (not_mem_of_mem_disjoint hm) hd]
  | store r f hm hd => rw [storeReg_trace, busCount_append, busCount_store f _ s (not_mem_of_mem_disjoint hm) hd]
  | incDec op f hm hd =>
    rw [stepMem_trace, busCount_append, busCount_readModifyWrite f _ s (mem_of_mem_subset hm) hd]
  | shiftM op f hm hd =>
    rw [shiftMem_trace, busCount_append, busCount_readModifyWrite f _ s (mem_of_mem_subset hm) hd]
  | regWrite r v hm hd =>
    rw [writeReg_trace, accesses_of_plain (not_mem_of_mem_disjoint hm) (by rw [hd]; decide), Nat.add_zero]
  | shiftA op hm hd =>
    rw [shiftAcc_trace, accesses_of_plain (not_mem_of_mem_disjoint hm) (by rw [hd]; decide), Nat.add_zero]
  | branch p o hm hd =>
    rw [branchIf_trace, accesses_of_plain (not_mem_of_mem_disjoint (mem_branchMnemonics hm)) (by rw [hd]; decide),
      Nat.add_zero]
  | pha => rw [push_trace, busCount_append, busCount_writeEvents]; rfl
  | pla => rw [writeReg_trace, pull_trace, busCount_append]; rfl
  | jsr lo hi =>
    rw [callTo_state, State.setPc_trace, push_trace, push_trace, busCount_append, busCount_append,
      busCount_writeEvents, busCount_writeEvents]
    rfl
  | rts =>
    rw [returnFrom_state, State.setPc_trace, State.setSp_trace, State.note_trace, busCount_append]
    rfl
  | txs | jmp | clc | sec | nop | brk => rfl

/-- An admitted instruction makes at most five bus accesses (rule R82). -/
theorem busAccesses_le_five {d : Descriptor} (h : d.admitted = true) :
    1 + d.mode.operandBytes + pointerReads d.mode + dataAccesses d ≤ 5 := by
  have hall : (admittedModes d.mnemonic).all
      (fun m => 1 + m.operandBytes + pointerReads m + dataAccesses ⟨d.mnemonic, m⟩ ≤ 5) = true := by
    cases d.mnemonic <;> rfl
  exact of_decide_eq_true (List.all_eq_true.mp hall d.mode (List.contains_iff_mem.mp h))

/-! ### Addresses as numbers (40_step_and_addressing.md rules R89 to R95) -/

theorem zext16_toNat (v : Byte) : (zext16 v).toNat = v.toNat := by
  rw [zext16, BitVec.toNat_setWidth]
  omega

theorem cat_toNat (hi lo : Byte) : (cat hi lo).toNat = lo.toNat + 256 * hi.toNat := by
  rw [cat, BitVec.toNat_append, ← Nat.shiftLeft_add_eq_or_of_lt lo.isLt, Nat.shiftLeft_eq, Nat.add_comm,
    Nat.mul_comm]

theorem ptrHi_wrap {c : Config} (h : c.zpPtrWrap = true) (p : Byte) : (ptrHi c p).toNat = (p.toNat + 1) % 256 := by
  rw [ptrHi, if_pos h, zext16_toNat]
  exact BitVec.toNat_add p 1

theorem ptrHi_noWrap {c : Config} (h : c.zpPtrWrap = false) (p : Byte) : (ptrHi c p).toNat = p.toNat + 1 := by
  have hfits : p.toNat + 1 < 65536 := by omega
  rw [ptrHi, if_neg (by rw [h]; decide), BitVec.toNat_add, zext16_toNat]
  exact Nat.mod_eq_of_lt hfits

/-- A zero-page pointer is the two core reads, low byte first (rules R92 and R93). -/
theorem readPointer_toNat (p : Byte) (s : State) : (readPointer p s).1.toNat = (coreByte (zext16 p) s).toNat +
    256 * (coreByte (ptrHi s.cfg p) (s.note [.read (zext16 p)])).toNat := by
  simp only [readPointer, cat_toNat, busRead_val, busRead_state]

/-- Indexing by Y wraps modulo 65536 (rules R93 and R95). -/
theorem add_zext16_toNat (a : Addr) (v : Byte) : (a + zext16 v).toNat = (a.toNat + v.toNat) % 65536 := by
  rw [BitVec.toNat_add, zext16_toNat]

end Sys2Proof.Machine

open Sys2Proof Sys2Proof.Machine

/-- Settles O21: by induction on the fuel of the run that ended; after its end every run stands still. -/
theorem runEndsWhereRunningEnds : Obligations.RunEndsWhereRunningEnds := by
  intro k m s t h ht
  induction k generalizing s with
  | zero =>
    cases h
    exact run_of_stopped ht _
  | succ k ih =>
    by_cases hr : s.runState = .running
    · obtain ⟨u, hu, hk⟩ := (run_succ_next hr).mp h
      rw [Nat.succ_add]
      exact (run_succ_next hr).mpr ⟨u, hu, ih u hk⟩
    · rw [run_of_stopped hr] at h ⊢
      exact h

/-- Settles O26: a step ends in an instruction that starts at the next address, and no other than a taken branch, a jump,
a call or a return moves PC from there. -/
theorem pcAdvancesByTheLength : Obligations.PcAdvancesByTheLength := by
  intro s t d hr hw hl h
  rw [← fetch_val] at hl
  rcases step_next_cases h with ⟨hstop, -⟩ | ⟨-, -, hnone, -⟩ | ⟨-, -, i, hi, -, ha⟩
  · exact absurd hr hstop
  · rw [hl] at hnone
    cases hnone
  · obtain rfl : i.desc = d := Option.some.inj (hi.symm.trans hl)
    rcases ha.pc_cases with hpc | hjump | htaken
    · exact ⟨fun _ => hpc, fun _ => hpc⟩
    · refine ⟨fun hno => absurd (mem_of_mem_subset hjump) hno, fun h => ?_⟩
      have hbranch := mem_branchMnemonics (untaken_mem_branchTests h)
      exact absurd hjump (not_mem_of_mem_disjoint hbranch)
    · refine ⟨fun hno => absurd (mem_of_mem_subset (mem_branchMnemonics htaken)) hno, fun h => ?_⟩
      exact absurd (branchTests_unique htaken (untaken_mem_branchTests h)) (by decide)

/-- Settles O27: the fetch makes one access a byte, the instruction those of its descriptor. -/
theorem busAccessesOfAStep : Obligations.BusAccessesOfAStep := by
  intro s t hr hw h
  rw [← fetch_val]
  rcases step_next_cases h with ⟨hstop, -⟩ | ⟨-, -, hnone, rfl⟩ | ⟨-, -, i, hi, -, ha⟩
  · exact absurd hr hstop
  · have htr : (raiseUnknownOpcode (fetch s).1 (fetch s).2).trace = s.trace ++ [.read s.pc] := by
      rw [raiseUnknownOpcode_trace, fetch_state]; rfl
    have hcount : busCount [.read s.pc] = 1 := busCount_read s.pc []
    refine ⟨[.read s.pc], htr, by omega, by omega, fun _ => hcount, fun d hd => ?_⟩
    rw [hnone] at hd
    cases hd
  · obtain ⟨evs, ⟨htr, -⟩, -⟩ := ((fetchEvents_progress i.length s _).trans ha.progress).bus
    have hcount : busCount evs =
        1 + i.desc.mode.operandBytes + pointerReads i.desc.mode + dataAccesses i.desc := by
      have htotal := ha.busCount_trace
      rw [htr, State.setPc_trace, State.note_trace, busCount_append, busCount_append, busCount_fetchEvents,
        Instr.length, Mode.length] at htotal
      omega
    have hle := busAccesses_le_five (lookup_admitted (Config.table_wf hw) hi)
    refine ⟨evs, htr, by omega, by omega, fun hnone => ?_, fun d hd => ?_⟩
    · rw [hi] at hnone
      cases hnone
    · rw [hi] at hd
      cases hd
      exact hcount

/-- Settles O22: the fetched bytes determine opcode and operands; off the device cells they are the stored bytes, and no
draw is counted. -/
theorem stepRunsTheDecodedInstruction : Obligations.StepRunsTheDecodedInstruction := by
  intro s i hr hw
  refine ⟨fun hdec => ?_, fun rest hdec hclear => ?_⟩
  · obtain ⟨op, hb, hl⟩ := decode_eq_ok_iff.mp hdec
    rw [List.append_nil] at hb
    exact step_of_fetched hr hw hl hb
  · obtain ⟨op, hb, hl⟩ := decode_eq_ok_iff.mp hdec
    have hb' : (fetchBytes i.length s).1 = op :: i.operands := by
      rw [fetchBytes_val_of_clear hclear, ← take_storedBytes i.length_le_three, storedBytes_three, hb, i.length_eq,
        List.take_succ_cons, List.take_left]
    rw [step_of_fetched hr hw hl hb', State.note, drawsIn_fetchEvents_of_clear hclear]
    rfl

/-- Settles O24: the step's first two cases. -/
theorem endStatesAreFinal : Obligations.EndStatesAreFinal := fun s h =>
  step_of_stopped (by rcases h with h | h <;> simp [h])

/-- Settles O36: each form's address from its rule; the index of the pointer byte wraps modulo 256. -/
theorem effectiveAddressesOfTheModes : Obligations.EffectiveAddressesOfTheModes := by
  intro s b lo hi
  refine ⟨zext16_toNat b, ?_, cat_toNat hi lo, ?_, fun p hp => ?_, ?_, fun f => effAddr_state f s⟩
  · exact (zext16_toNat _).trans (BitVec.toNat_add b s.x)
  · exact (add_zext16_toNat _ _).trans (by rw [cat_toNat])
  · obtain rfl : p = b + s.x := BitVec.eq_of_toNat_eq (hp.trans (BitVec.toNat_add b s.x).symm)
    exact readPointer_toNat _ s
  · exact (add_zext16_toNat _ _).trans (by rw [readPointer_toNat])

/-- Settles O37: both settings as numbers; they differ where the successor leaves the byte. -/
theorem pointerHighByteAddress : Obligations.PointerHighByteAddress := by
  intro c p
  refine ⟨fun h => ptrHi_wrap h p, fun h => ptrHi_noWrap h p, ?_⟩
  rw [ne_eq, ← BitVec.toNat_inj, ptrHi_wrap rfl, ptrHi_noWrap rfl, ← BitVec.toNat_inj]
  change ¬ (p.toNat + 1) % 256 = p.toNat + 1 ↔ p.toNat = 255
  omega

end

section
/-! Loads, stores, transfers and stack moves (41_load_store_transfer.md). `Keeps` and `BusDoes` have one rule per state
operation, and `Keeps` composes along a sequence of them; what a load or a store form does is then said once, for every
instruction whose meaning it is. -/

namespace Sys2Proof.Machine

/-! ### What an operation keeps -/

/-- A sequence of operations keeps what both parts keep. -/
theorem Keeps.trans {l l' : List Reg} {s t u : State} (h : Keeps l s t) (h' : Keeps l' t u) : Keeps (l ++ l') s u := by
  obtain ⟨hreg, hcfg, hrun, hfault, hinput⟩ := h
  obtain ⟨hreg', hcfg', hrun', hfault', hinput'⟩ := h'
  refine ⟨fun r hr => ?_, hcfg'.trans hcfg, hrun'.trans hrun, hfault'.trans hfault, hinput'.trans hinput⟩
  obtain ⟨hl, hl'⟩ := not_or.mp (mt List.mem_append.mpr hr)
  exact (hreg' r hl').trans (hreg r hl)

theorem note_keeps (evs : List Event) (s : State) : Keeps [] s (s.note evs) := by simp [Keeps]

theorem setSp_keeps (v : Byte) (s : State) : Keeps [] s (s.setSp v) := by simp [Keeps]

theorem writeReg_keeps (r : Reg) (v : Byte) (s : State) : Keeps [r] s (writeReg r v s) := by
  refine ⟨fun q hq => ?_, by simp [writeReg_state]⟩
  rw [writeReg_reg, if_neg (List.ne_of_not_mem_cons hq)]

theorem busWrite_keeps (a : Addr) (v : Byte) (s : State) : Keeps [] s (busWrite a v s) := by
  refine ⟨fun r _ => (busWrite_frame a v s).1 r, ?_⟩
  simp [busWrite_state]

theorem push_keeps (v : Byte) (s : State) : Keeps [] s (push v s) := (setSp_keeps _ s).trans (busWrite_keeps _ v _)

theorem pull_keeps (s : State) : Keeps [] s (pull s).2 := by
  rw [pull_state]
  exact (note_keeps _ s).trans (setSp_keeps _ _)

/-- Memory that is the same data reads the same. -/
theorem KeepsMem.of_mem_eq {s t : State} (h : t.mem = s.mem) : KeepsMem s t :=
  ⟨fun a => congrArg (Memory.read · a.toNat) h, h⟩

/-! ### Draws (20_memory.md rule R42) -/

@[simp] theorem writeReg_draws (r : Reg) (v : Byte) (s : State) : (writeReg r v s).draws = s.draws := by
  simp [writeReg_state]

theorem push_busDoes (v : Byte) (s : State) :
    BusDoes (writeEvents s.cfg (stackAddr s.cfg (s.sp - 1)) v) s (push v s) := by
  simp [BusDoes, push]

theorem pull_busDoes (s : State) : BusDoes [.read (stackAddr s.cfg s.sp)] s (pull s).2 := by
  simp [BusDoes, pull_state]

/-! ### Loads and stores (40_step_and_addressing.md rule R84) -/

/-- The operand a shared action takes is the operand value of the claims. -/
theorem opnd_val (src : Source) (s : State) : (opnd src s).1 = operandValue src s := by
  cases src with
  | imm b => rfl
  | mem f => rw [opnd, busRead_val, effAddr_state, operandValue]

theorem loadReg_busDoes (r : Reg) (src : Source) (s : State) : BusDoes (src.events s) s (loadReg r src s) := by
  simp [BusDoes, loadReg_state]

theorem storeReg_busDoes (r : Reg) (f : AddrForm) (s : State) :
    BusDoes (f.pointerEvents s ++ writeEvents s.cfg (effAddr f s).1 (s.reg r)) s (storeReg r f s) := by
  simp [BusDoes, storeReg_state, drawsIn_append]

/-- An instruction whose meaning is `loadReg` does what the claim about a load says. -/
theorem LoadsReg.of_exec {op : Byte} {r : Reg} {i : Instr} {src : Source} {s : State} (hop : i.opcode = op)
    (h : exec i s = .next (loadReg r src s)) : LoadsReg op r i src s := by
  obtain ⟨hsp, hpc, hc, hmem⟩ := loadReg_frame r src s
  have hload : loadReg r src s = writeReg r (operandValue src s) (s.note (src.events s)) := by
    rw [loadReg_state, opnd_val]
  refine ⟨hop, _, h, ?_, ?_, hc, hsp, hpc, ?_, .of_mem_eq hmem, loadReg_busDoes r src s⟩
  · rw [hload, writeReg_reg, if_pos rfl]
  · exact hload ▸ writeReg_flagsOf r _ _
  · exact hload ▸ (note_keeps _ s).trans (writeReg_keeps r _ _)

/-- An instruction whose meaning is `storeReg` does what the claim about a store says. -/
theorem StoresReg.of_exec {op : Byte} {r : Reg} {i : Instr} {f : AddrForm} {s : State} (hop : i.opcode = op)
    (h : exec i s = .next (storeReg r f s)) : StoresReg op r i f s := by
  obtain ⟨-, hsp, hpc, hflags⟩ := storeReg_frame r f s
  refine ⟨hop, _, h, ?_, hflags, hsp, hpc, ?_, storeReg_busDoes r f s⟩
  · rw [storeReg_state]
    exact busWrite_peek _ _ (s.note _)
  · rw [storeReg_state]
    exact (note_keeps _ s).trans (busWrite_keeps _ _ _)

end Sys2Proof.Machine

open Sys2Proof Sys2Proof.Machine

/-- Settles O39: each form is `storeReg` of its register at its address. -/
theorem storesWriteOneByte : Obligations.StoresWriteOneByte := by
  intro s b lo hi
  refine ⟨?_, ?_, ?_, ?_, ?_, ?_, ?_, ?_, ?_, ?_, ?_⟩ <;> exact .of_exec rfl rfl

/-- Settles O38: each form is `loadReg` of its register from its source. -/
theorem loadsTakeTheOperandValue : Obligations.LoadsTakeTheOperandValue := by
  intro s b lo hi
  refine ⟨?_, ?_, ?_, ?_, ?_, ?_, ?_, ?_, ?_, ?_, ?_, ?_, ?_, ?_, ?_⟩ <;> exact .of_exec rfl rfl

/-- Settles O40: each is a register write of the source, as a record the update the rule gives. -/
theorem transfersMoveAndSetFlags : Obligations.TransfersMoveAndSetFlags :=
  fun _ => ⟨⟨rfl, rfl⟩, ⟨rfl, rfl⟩, ⟨rfl, rfl⟩, ⟨rfl, rfl⟩, ⟨rfl, rfl⟩⟩

/-- Settles O41: SP is set directly, with no register write and so no flag. -/
theorem txsWritesNoFlag : Obligations.TxsWritesNoFlag := fun _ => ⟨rfl, rfl⟩

/-- Settles O42: PHA is one push of A. -/
theorem phaPushesA : Obligations.PhaPushesA := by
  intro s
  obtain ⟨-, hsp, hstore, -⟩ := pushAndPullMoveOneByte s.a s
  obtain ⟨-, hpc, hflags⟩ := push_frame s.a s
  exact ⟨rfl, push s.a s, rfl, hsp, hstore, hflags, hpc, push_keeps s.a s, push_sp s.a s ▸ push_busDoes s.a s⟩

/-- Settles O43: PLA is one pull, then a register write of the byte pulled. -/
theorem plaPullsA : Obligations.PlaPullsA := by
  intro s
  obtain ⟨-, -, -, -, hval, hsp, -⟩ := pushAndPullMoveOneByte s.a s
  obtain ⟨-, hpc, hc, -, -, hmem⟩ := pull_frame s
  obtain ⟨hsp', hpc', hc', hmem'⟩ := writeReg_frame .a (pull s).1 (pull s).2
  have hbus : BusDoes [.read (stackAddr s.cfg s.sp)] s (writeReg .a (pull s).1 (pull s).2) := by
    simpa [BusDoes] using pull_busDoes s
  exact ⟨rfl, writeReg .a (pull s).1 (pull s).2, rfl, hval, hsp' ▸ hsp, writeReg_flagsOf .a _ _, hc'.trans hc,
    hpc'.trans hpc, (pull_keeps s).trans (writeReg_keeps .a _ _), .of_mem_eq (hmem'.trans hmem), hbus⟩

end

section
/-! The ALU (42_alu.md). An instruction that reads its operand and then writes registers and flags keeps the rest
(`ReadsOnly`, one rule per operation in that sequence); one that stores its result back does what `storeBack_spec` says.
The results of the ALU's functions are given as numbers, and each shape of instruction is then one lemma for every
instruction whose meaning it is. -/

namespace Sys2Proof.Machine

/-! ### Reading an operand, then writing registers and flags -/

/-- From `s` to `t` exactly these bus events happened and at most the registers `l` and the flags were written. -/
def ReadsOnly (l : List Reg) (evs : List Event) (s t : State) : Prop :=
  t.sp = s.sp ∧ t.pc = s.pc ∧ Keeps l s t ∧ KeepsMem s t ∧ BusDoes evs s t

namespace ReadsOnly

variable {l : List Reg} {evs : List Event} {s t : State}

theorem note (evs : List Event) (s : State) : ReadsOnly [] evs s (s.note evs) :=
  ⟨rfl, rfl, note_keeps evs s, .of_mem_eq rfl, rfl, rfl⟩

/-- Writing C is no write of a register (10_state.md rule R23). -/
theorem carryIf (h : ReadsOnly l evs s t) (p : Bool) : ReadsOnly l evs s (t.carryIf p) := by
  simpa [ReadsOnly, Keeps, KeepsMem, BusDoes] using h

/-- Writing Z and N is no write of a register (10_state.md rule R24). -/
theorem setFlagsZN (h : ReadsOnly l evs s t) (p q : Bool) : ReadsOnly l evs s (t.setFlagsZN p q) := by
  simpa [ReadsOnly, Keeps, KeepsMem, BusDoes] using h

/-- A register write adds its register to those written (10_state.md rule R19). -/
theorem writeReg (h : ReadsOnly l evs s t) (r : Reg) (v : Byte) : ReadsOnly (l ++ [r]) evs s (writeReg r v t) := by
  obtain ⟨hsp, hpc, hkeeps, ⟨-, hmem⟩, htrace, hdraws⟩ := h
  obtain ⟨hsp', hpc', -, hmem'⟩ := writeReg_frame r v t
  exact ⟨hsp'.trans hsp, hpc'.trans hpc, hkeeps.trans (writeReg_keeps r v t), .of_mem_eq (hmem'.trans hmem),
    (writeReg_trace r v t).trans htrace, (writeReg_draws r v t).trans hdraws⟩

end ReadsOnly

/-! ### ADC and SBC (42_alu.md rules R115 and R116) -/

theorem addCarry_toNat (a m : Byte) (c : Bool) :
    (addCarry a m c).1.toNat = (a.toNat + m.toNat + bitNat c) % 256 := by
  simp [addCarry]

theorem subBorrow_toNat (a m : Byte) (c : Bool) :
    ((subBorrow a m c).1.toNat : Int) = ((a.toNat : Int) - m.toNat - (1 - bitNat c)) % 256 := by
  rw [subBorrow, BitVec.toNat_ofInt]
  exact Int.toNat_of_nonneg (Int.emod_nonneg _ (by decide))

/-- SBC is ADC of the complement: A - M - (1 - C) and A + (255 - M) + C differ by 256 (42_alu.md rule R116). -/
theorem subBorrow_eq_addCarry_not (a m : Byte) (c : Bool) : subBorrow a m c = addCarry a (~~~m) c := by
  have hnot : (~~~m).toNat = 255 - m.toNat := BitVec.toNat_not
  have hm : m.toNat < 256 := m.isLt
  refine Prod.ext (BitVec.eq_of_toNat_eq ?_) (decide_eq_decide.mpr ?_)
  · have hsub := subBorrow_toNat a m c
    have hadd := addCarry_toNat a (~~~m) c
    omega
  · omega

/-- What ADC and SBC do with the result and the carry of their ALU function. -/
theorem aluCarry_spec (op : Byte → Byte → Bool → Byte × Bool) (src : Source) (s : State) :
    let r := op s.a (operandValue src s) s.c
    let t := aluCarry op src s
    t.a = r.1 ∧ t.c = r.2 ∧ FlagsOf r.1 t ∧ ReadsOnly [.a] (src.events s) s t := by
  rw [aluCarry_state, opnd_val]
  exact ⟨writeReg_reg .a .a _ _, rfl, writeReg_flagsOf .a _ _, ((ReadsOnly.note _ s).carryIf _).writeReg .a _⟩

theorem sbc_imm_eq_adc_imm_not (b : Byte) (s : State) :
    aluCarry subBorrow (.imm b) s = aluCarry addCarry (.imm (~~~b)) s := by
  rw [aluCarry_state, opnd_val, operandValue, subBorrow_eq_addCarry_not, aluCarry_state, opnd_val, operandValue]
  rfl

theorem AddsWithCarry.of_exec {op : Byte} {i : Instr} {src : Source} {s : State} (hop : i.opcode = op)
    (h : exec i s = .next (aluCarry addCarry src s)) : AddsWithCarry op i src s := by
  obtain ⟨ha, hc, hflags, hrest⟩ := aluCarry_spec addCarry src s
  exact ⟨hop, _, h, by rw [ha, addCarry_toNat], hc, ha ▸ hflags, hrest⟩

theorem SubtractsWithBorrow.of_exec {op : Byte} {i : Instr} {src : Source} {s : State} (hop : i.opcode = op)
    (h : exec i s = .next (aluCarry subBorrow src s)) : SubtractsWithBorrow op i src s := by
  obtain ⟨ha, hc, hflags, hrest⟩ := aluCarry_spec subBorrow src s
  exact ⟨hop, _, h, by rw [ha, subBorrow_toNat], hc, ha ▸ hflags, hrest⟩

/-! ### AND, ORA, EOR, the compares and BIT (42_alu.md rules R117 to R124) -/

/-- N as the claims read it: the most significant bit of a byte is its bit 7 (10_state.md rule R24). -/
theorem msb_eq_bit7 (v : Byte) : v.msb = v.getLsbD 7 := BitVec.msb_eq_getLsbD_last v

theorem CombinesBits.of_exec {f : Byte → Byte → Byte} {op : Byte} {i : Instr} {src : Source} {s : State}
    (hop : i.opcode = op) (h : exec i s = .next (aluLogic f src s)) : CombinesBits f op i src s := by
  rw [aluLogic_state, opnd_val] at h
  have ha : (writeReg .a (f s.a (operandValue src s)) (s.note (src.events s))).a = f s.a (operandValue src s) :=
    writeReg_reg .a .a _ _
  exact ⟨hop, _, h, ha, ha.symm ▸ writeReg_flagsOf .a _ _, rfl, (ReadsOnly.note _ s).writeReg .a _⟩

/-- The difference is zero exactly when the operands are equal (42_alu.md rule R120). -/
theorem ComparesReg.of_exec {op : Byte} {r : Reg} {i : Instr} {src : Source} {s : State} (hop : i.opcode = op)
    (h : exec i s = .next (compareReg r src s)) : ComparesReg op r i src s := by
  rw [compareReg_state, opnd_val] at h
  have hz : decide (s.reg r - operandValue src s = 0) = decide (s.reg r = operandValue src s) :=
    decide_eq_decide.mpr sub_eq_zero
  exact ⟨hop, _, h, rfl, hz, msb_eq_bit7 (s.reg r - operandValue src s),
    ((ReadsOnly.note _ s).carryIf _).setFlagsZN _ _⟩

/-- N is bit 7 of the operand, not of the AND (42_alu.md rule R124). -/
theorem TestsBits.of_exec {op : Byte} {i : Instr} {f : AddrForm} {s : State} (hop : i.opcode = op)
    (h : exec i s = .next (bitTest f s)) : TestsBits op i f s := by
  rw [bitTest_state, opnd_val] at h
  exact ⟨hop, _, h, rfl, msb_eq_bit7 (operandValue (.mem f) s), rfl, (ReadsOnly.note _ s).setFlagsZN _ _⟩

/-! ### Storing a result back: INC, DEC and the memory shifts (42_alu.md rules R125, R126 and R131) -/

/-- After the reads `evs` C becomes `p`, the byte is written at the address, and Z and N come from it. -/
def storeBack (a : Addr) (v : Byte) (p : Bool) (evs : List Event) (s : State) : State :=
  setZN v (busWrite a v ((s.note evs).carryIf p))

/-- INC and DEC store back and leave C as it is. -/
theorem stepMem_eq_storeBack (op : Byte → Byte) (f : AddrForm) (s : State) :
    stepMem op f s =
      storeBack (effAddr f s).1 (op (operandValue (.mem f) s)) s.c ((Source.mem f).events s) s := by
  rw [stepMem_state, opnd_val]
  rfl

/-- A memory shift stores back and sets C to the bit shifted out. -/
theorem shiftMem_eq_storeBack (op : Byte → Bool → Byte × Bool) (f : AddrForm) (s : State) :
    let r := op (operandValue (.mem f) s) s.c
    shiftMem op f s = storeBack (effAddr f s).1 r.1 r.2 ((Source.mem f).events s) s := by
  rw [shiftMem_state, opnd_val]
  rfl

theorem storeBack_spec (a : Addr) (v : Byte) (p : Bool) (evs : List Event) (s : State) :
    let t := storeBack a v p evs s
    StoresOnly a v s t ∧ FlagsOf v t ∧ t.c = p ∧ t.sp = s.sp ∧ t.pc = s.pc ∧ Keeps [] s t ∧
      BusDoes (evs ++ writeEvents s.cfg a v) s t := by
  obtain ⟨-, hsp, hpc, hc, -⟩ := busWrite_frame a v ((s.note evs).carryIf p)
  refine ⟨busWrite_peek a v ((s.note evs).carryIf p), ⟨rfl, msb_eq_bit7 v⟩, hc, hsp, hpc, ?_, ?_⟩
  · simpa [Keeps, storeBack, setZN] using busWrite_keeps a v ((s.note evs).carryIf p)
  · simp [BusDoes, storeBack, setZN, drawsIn_append]

/-- An instruction whose meaning is `stepMem` of the claim's function does what the claim about INC and DEC says. -/
theorem StepsMem.of_exec {op g : Byte → Byte} {opc : Byte} {i : Instr} {f : AddrForm} {s : State}
    (hop : i.opcode = opc) (h : exec i s = .next (stepMem op f s)) (hg : ∀ m, op m = g m) :
    StepsMem g opc i f s := by
  rw [stepMem_eq_storeBack, hg] at h
  exact ⟨hop, _, h, storeBack_spec _ _ _ _ s⟩

/-- An instruction whose meaning is `shiftMem` of the claim's functions does what the claim about a shift says. -/
theorem ShiftsMem.of_exec {op : Byte → Bool → Byte × Bool} {g : Byte → Bool → Nat} {out : Byte → Bool} {opc : Byte}
    {i : Instr} {f : AddrForm} {s : State} (hop : i.opcode = opc) (h : exec i s = .next (shiftMem op f s))
    (hg : ∀ o c, op o c = (BitVec.ofNat 8 (g o c), out o)) : ShiftsMem g out opc i f s := by
  rw [shiftMem_eq_storeBack, hg] at h
  exact ⟨hop, _, h, storeBack_spec _ _ _ _ s⟩

/-! ### The new byte as a number (42_alu.md rules R125, R126 and R132 to R135) -/

theorem inc_eq_ofNat (m : Byte) : m + 1 = BitVec.ofNat 8 (m.toNat + 1) := by
  simp [BitVec.ofNat_add]

theorem dec_eq_ofInt (m : Byte) : m - 1 = BitVec.ofInt 8 ((m.toNat : Int) - 1) := by
  rw [sub_eq_add_neg, sub_eq_add_neg, BitVec.ofInt_add, BitVec.ofInt_natCast, BitVec.ofNat_toNat, BitVec.setWidth_eq]
  rfl

theorem shiftLeft_one_eq_ofNat (o : Byte) : o <<< 1 = BitVec.ofNat 8 (2 * o.toNat) := by
  simp [← BitVec.toNat_inj, Nat.shiftLeft_eq, Nat.mul_comm]

theorem shiftRight_one_eq_ofNat (o : Byte) : o >>> 1 = BitVec.ofNat 8 (o.toNat / 2) := by
  rw [← BitVec.toNat_inj, BitVec.toNat_ushiftRight, BitVec.toNat_ofNat, Nat.shiftRight_one, Nat.mod_eq_of_lt (by omega)]

theorem aslBits_eq (o : Byte) (c : Bool) : aslBits o c = (BitVec.ofNat 8 (2 * o.toNat), o.getLsbD 7) :=
  Prod.ext (shiftLeft_one_eq_ofNat o) (msb_eq_bit7 o)

theorem lsrBits_eq (o : Byte) (c : Bool) : lsrBits o c = (BitVec.ofNat 8 (o.toNat / 2), o.getLsbD 0) :=
  Prod.ext (shiftRight_one_eq_ofNat o) rfl

/-- The old carry enters at bit 0, which the shift left clear. -/
theorem rolBits_eq (o : Byte) (c : Bool) :
    rolBits o c = (BitVec.ofNat 8 (2 * o.toNat + bitNat c), o.getLsbD 7) := by
  have hclear : o <<< 1 &&& BitVec.ofNat 8 (bitNat c) = 0#8 := by
    ext i hi
    by_cases h0 : i = 0
    · simp [h0]
    · cases c <;> simp [bitNat, h0]
  refine Prod.ext ?_ (msb_eq_bit7 o)
  rw [rolBits, ← BitVec.add_eq_or_of_and_eq_zero _ _ hclear, shiftLeft_one_eq_ofNat, ← BitVec.ofNat_add]

/-- The old carry enters at bit 7, which the shift left clear. -/
theorem rorBits_eq (o : Byte) (c : Bool) :
    rorBits o c = (BitVec.ofNat 8 (o.toNat / 2 + 128 * bitNat c), o.getLsbD 0) := by
  have hclear : o >>> 1 &&& BitVec.ofNat 8 (bitNat c) <<< 7 = 0#8 := by
    ext i hi
    by_cases h7 : i < 7
    · simp [h7]
    · simp [BitVec.getLsbD_of_ge o (1 + i) (by omega)]
  have htop : BitVec.ofNat 8 (bitNat c) <<< 7 = BitVec.ofNat 8 (128 * bitNat c) := by cases c <;> rfl
  refine Prod.ext ?_ rfl
  rw [rorBits, ← BitVec.add_eq_or_of_and_eq_zero _ _ hclear, shiftRight_one_eq_ofNat, htop, ← BitVec.ofNat_add]

/-! ### The accumulator shifts (42_alu.md rule R131) -/

/-- An instruction whose meaning is `shiftAcc` does what the claim about an accumulator shift says, Z and N being read off
the result as a number. -/
theorem ShiftsAcc.of_exec {op : Byte → Bool → Byte × Bool} {result : Nat} {out : Bool} {opc : Byte} {i : Instr}
    {s : State} (hop : i.opcode = opc) (h : exec i s = .next (shiftAcc op s))
    (hr : op s.a s.c = (BitVec.ofNat 8 result, out)) : ShiftsAcc result out opc i s := by
  have hz : decide (BitVec.ofNat 8 result = 0) = decide (result % 256 = 0) := by simp [← BitVec.toNat_inj]
  have hn : (BitVec.ofNat 8 result).msb = decide (128 ≤ result % 256) := by simp [BitVec.msb_eq_decide]
  rw [shiftAcc, hr, writeReg_state, hz, hn] at h
  exact ⟨hop, h⟩

end Sys2Proof.Machine

open Sys2Proof Sys2Proof.Machine

/-- Settles O45: each form is `aluCarry subBorrow` of its source, and `subBorrow` is `addCarry` of the complement. -/
theorem sbcSubtractsWithBorrow : Obligations.SbcSubtractsWithBorrow := by
  intro s b lo hi
  refine ⟨?_, ?_, ?_, ?_, ?_, ?_, ?_, congrArg Host.Outcome.next (sbc_imm_eq_adc_imm_not b s),
    subBorrow_eq_addCarry_not s.a⟩ <;> exact .of_exec rfl rfl

/-- Settles O49: each form is `stepMem` at its address, of the byte one more or one less. -/
theorem incDecStepMemory : Obligations.IncDecStepMemory := by
  intro s b lo hi
  refine ⟨?_, ?_, ?_, ?_, ?_, ?_⟩
  case refine_1 | refine_2 | refine_3 => exact .of_exec rfl rfl inc_eq_ofNat
  case refine_4 | refine_5 | refine_6 => exact .of_exec rfl rfl dec_eq_ofInt

/-- Settles O52: each form is `shiftMem` at its address, of the shift its number is given by. -/
theorem shiftsOfMemory : Obligations.ShiftsOfMemory := by
  intro s b lo hi
  refine ⟨?_, ?_, ?_, ?_, ?_, ?_, ?_, ?_, ?_, ?_, ?_, ?_⟩
  case refine_1 | refine_2 | refine_3 => exact .of_exec rfl rfl aslBits_eq
  case refine_4 | refine_5 | refine_6 => exact .of_exec rfl rfl lsrBits_eq
  case refine_7 | refine_8 | refine_9 => exact .of_exec rfl rfl rolBits_eq
  case refine_10 | refine_11 | refine_12 => exact .of_exec rfl rfl rorBits_eq

/-- Settles O44: each form is `aluCarry addCarry` of its source. -/
theorem adcAddsWithCarry : Obligations.AdcAddsWithCarry := by
  intro s b lo hi
  refine ⟨?_, ?_, ?_, ?_, ?_, ?_, ?_⟩ <;> exact .of_exec rfl rfl

/-- Settles O46: each form is `aluLogic` of its bitwise operation and its source. -/
theorem logicCombinesBits : Obligations.LogicCombinesBits := by
  intro s b lo hi
  refine ⟨?_, ?_, ?_, ?_, ?_, ?_, ?_, ?_, ?_, ?_, ?_, ?_, ?_, ?_, ?_, ?_, ?_, ?_, ?_, ?_, ?_⟩ <;> exact .of_exec rfl rfl

/-- Settles O47: each form is `compareReg` of its register with its source. -/
theorem comparesSetTheFlags : Obligations.ComparesSetTheFlags := by
  intro s b lo hi
  refine ⟨?_, ?_, ?_, ?_, ?_, ?_, ?_, ?_, ?_, ?_, ?_, ?_, ?_⟩ <;> exact .of_exec rfl rfl

/-- Settles O48: both forms are `bitTest` at their address. -/
theorem bitTestsAgainstMemory : Obligations.BitTestsAgainstMemory := fun _ _ _ _ => ⟨.of_exec rfl rfl, .of_exec rfl rfl⟩

/-- Settles O50: each is a register write of the register one more or less, as a record the update the rule gives. -/
theorem indexRegistersStep : Obligations.IndexRegistersStep :=
  fun _ => ⟨⟨rfl, rfl⟩, ⟨rfl, rfl⟩, ⟨rfl, rfl⟩, ⟨rfl, rfl⟩⟩

/-- Settles O51: each is `shiftAcc` of the shift its number is given by. -/
theorem shiftsOfTheAccumulator : Obligations.ShiftsOfTheAccumulator := fun s =>
  ⟨.of_exec rfl rfl (aslBits_eq s.a s.c), .of_exec rfl rfl (lsrBits_eq s.a s.c),
    .of_exec rfl rfl (rolBits_eq s.a s.c), .of_exec rfl rfl (rorBits_eq s.a s.c)⟩

end

section
/-! Control (43_control.md). A call is two pushes and a jump, a return two pulls and a jump; what each keeps and which
bus accesses it makes follow from the rules of one push and one pull. A taken branch's target is given as a number. -/

namespace Sys2Proof.Machine

/-! ### Sequences of operations -/

/-- A sequence of operations makes the bus accesses of both parts, in order. -/
theorem BusDoes.trans {xs ys : List Event} {s t u : State} (h : BusDoes xs s t) (hcfg : t.cfg = s.cfg)
    (h' : BusDoes ys t u) : BusDoes (xs ++ ys) s u := by
  obtain ⟨htrace, hdraws⟩ := h
  obtain ⟨htrace', hdraws'⟩ := h'
  refine ⟨?_, ?_⟩
  · rw [htrace', htrace, List.append_assoc]
  · rw [hdraws', hdraws, hcfg, drawsIn_append, Nat.add_assoc]

theorem setPc_keeps (a : Addr) (s : State) : Keeps [] s (s.setPc a) := by simp [Keeps]

theorem callTo_keeps (a : Addr) (s : State) : Keeps [] s (callTo a s) :=
  ((push_keeps _ s).trans (push_keeps _ _)).trans (setPc_keeps a _)

theorem returnFrom_keeps (s : State) : Keeps [] s (returnFrom s) :=
  ((pull_keeps s).trans (pull_keeps _)).trans (setPc_keeps _ _)

/-! ### Addresses as numbers and their two bytes (00_scope.md rule R13) -/

theorem cat_eq_ofNat (hi lo : Byte) : cat hi lo = BitVec.ofNat 16 (lo.toNat + 256 * hi.toNat) := by
  rw [← cat_toNat, BitVec.ofNat_toNat, BitVec.setWidth_eq]

theorem lo8_eq_ofNat (a : Addr) : lo8 a = BitVec.ofNat 8 a.toNat := rfl

theorem hi8_eq_ofNat (a : Addr) : hi8 a = BitVec.ofNat 8 (a.toNat / 256) :=
  congrArg (BitVec.ofNat 8) (Nat.shiftRight_eq_div_pow a.toNat 8)

/-! ### A call (20_memory.md rule R57) -/

theorem callTo_sp (a : Addr) (s : State) : (callTo a s).sp = s.sp - 1 - 1 := by
  rw [callTo_state, State.setPc_sp, push_sp, push_sp]

/-- The slot above the new SP is that of the first push. -/
theorem callTo_sp_add_one (a : Addr) (s : State) : (callTo a s).sp + 1 = s.sp - 1 := by
  rw [callTo_sp, BitVec.sub_add_cancel]

/-- A call stores the low byte of PC at the slot of the new SP, the high byte above it, and no other byte. -/
theorem callTo_peek (a : Addr) (s : State) (b : Addr) : (callTo a s).peek b =
    if b = stackAddr s.cfg (callTo a s).sp then lo8 s.pc
    else if b = stackAddr s.cfg ((callTo a s).sp + 1) then hi8 s.pc else s.peek b := by
  rw [callTo_sp_add_one, callTo_sp, callTo_state, State.setPc_peek, push_peek, push_peek, push_cfg, push_sp]

/-- A call writes the high byte of PC, then the low byte. -/
theorem callTo_busDoes (a : Addr) (s : State) :
    BusDoes (writeEvents s.cfg (stackAddr s.cfg ((callTo a s).sp + 1)) (hi8 s.pc) ++
      writeEvents s.cfg (stackAddr s.cfg (callTo a s).sp) (lo8 s.pc)) s (callTo a s) := by
  have hlo := push_busDoes (lo8 s.pc) (push (hi8 s.pc) s)
  rw [push_cfg, push_sp] at hlo
  rw [callTo_sp_add_one, callTo_sp]
  exact (push_busDoes (hi8 s.pc) s).trans (push_cfg _ s) hlo

/-! ### A return (20_memory.md rule R58) -/

/-- A return jumps to the two core reads, low byte first, whatever they give. -/
theorem returnFrom_pc_toNat (s : State) : (returnFrom s).pc.toNat = (coreByte (stackAddr s.cfg s.sp) s).toNat +
    256 * (coreByte (stackAddr s.cfg (s.sp + 1)) (s.note [.read (stackAddr s.cfg s.sp)])).toNat := by
  rw [returnFrom_state, State.setPc_pc, cat_toNat, pull_val, pull_val, pull_state]
  rfl

/-- A return reads the slot of SP, then the slot above. -/
theorem returnFrom_busDoes (s : State) :
    BusDoes [.read (stackAddr s.cfg s.sp), .read (stackAddr s.cfg (s.sp + 1))] s (returnFrom s) := by
  have hhi := pull_busDoes (pull s).2
  rw [pull_cfg, pull_sp] at hhi
  exact (pull_busDoes s).trans (pull_cfg s) hhi

/-! ### A branch (43_control.md rule R139) -/

/-- The target is PC plus the signed offset, modulo 65536 (40_step_and_addressing.md rule R96). -/
theorem branchTarget_eq_ofInt (o : Byte) (s : State) :
    branchTarget o s = BitVec.ofInt 16 ((s.pc.toNat : Int) + o.toInt) := by
  rw [BitVec.ofInt_add, BitVec.ofInt_natCast, BitVec.ofNat_toNat, BitVec.setWidth_eq]
  rfl

/-- An instruction whose meaning is `branchIf` does what the claim about a branch says. -/
theorem Branches.of_exec {p : Bool} {op : Byte} {i : Instr} {o : Byte} {s : State} (hop : i.opcode = op)
    (h : exec i s = .next (branchIf p o s)) : Branches p op i o s := by
  refine ⟨hop, ?_⟩
  rw [h, ← branchTarget_eq_ofInt]
  cases p <;> rfl

end Sys2Proof.Machine

open Sys2Proof Sys2Proof.Machine

/-- Settles O53: JMP sets PC to its operand bytes read as an address. -/
theorem jmpSetsPc : Obligations.JmpSetsPc := fun s lo hi =>
  ⟨rfl, congrArg (fun a => Host.Outcome.next (s.setPc a)) (cat_eq_ofNat hi lo)⟩

/-- Settles O54: JSR is `callTo` its operand, two pushes and a jump. -/
theorem jsrPushesTheReturnAddress : Obligations.JsrPushesTheReturnAddress := by
  intro s lo hi
  obtain ⟨-, hflags⟩ := callTo_frame (cat hi lo) s
  refine ⟨rfl, callTo (cat hi lo) s, rfl, cat_toNat hi lo, ?_, fun a => ?_, hflags, callTo_keeps _ s,
    callTo_busDoes _ s⟩
  · rw [callTo_sp]
    bv_omega
  · rw [← lo8_eq_ofNat, ← hi8_eq_ofNat]
    exact callTo_peek (cat hi lo) s a

/-- Settles O55: RTS is `returnFrom`, two pulls and a jump, with no condition on the stack. -/
theorem rtsPullsThePc : Obligations.RtsPullsThePc := by
  intro s
  obtain ⟨-, hc, hz, hn, hmem⟩ := returnFrom_frame s
  have hsp : (returnFrom s).sp.toNat = (s.sp.toNat + 2) % 256 := by
    rw [(Ascends.returnFrom s).sp]
    exact BitVec.toNat_add s.sp 2
  exact ⟨rfl, returnFrom s, rfl, returnFrom_pc_toNat s, hsp, ⟨hc, hz, hn⟩, returnFrom_keeps s, .of_mem_eq hmem,
    returnFrom_busDoes s⟩

/-- Settles O56: each form is `branchIf` of its flag. -/
theorem branchesFollowTheirFlag : Obligations.BranchesFollowTheirFlag := fun _ _ =>
  ⟨.of_exec rfl rfl, .of_exec rfl rfl, .of_exec rfl rfl, .of_exec rfl rfl, .of_exec rfl rfl, .of_exec rfl rfl⟩

/-- Settles O57: CLC and SEC are `carryIf` of a constant, NOP the state it was given. -/
theorem carryInstructionsAndNop : Obligations.CarryInstructionsAndNop :=
  fun _ => ⟨⟨rfl, rfl⟩, ⟨rfl, rfl⟩, ⟨rfl, rfl⟩⟩

/-- Settles O58: BRK is `halt`, as a record the update of the run state alone. -/
theorem brkHalts : Obligations.BrkHalts := fun _ => ⟨rfl, rfl⟩

end

section
/-! The run state and the fault record (60_exceptions.md). `Acts.runState_eq` says that only BRK's action changes
the run state, `step_unknown` when a step is the exception, `raiseUnknownOpcode_fetch` what that writes. -/

namespace Sys2Proof.Machine

/-! ### The run state (10_state.md rule R31) -/

@[simp] theorem writeReg_runState (r : Reg) (v : Byte) (s : State) : (writeReg r v s).runState = s.runState := by
  simp [writeReg_state]

@[simp] theorem busWrite_runState (a : Addr) (v : Byte) (s : State) : (busWrite a v s).runState = s.runState := by
  simp [busWrite_state]

@[simp] theorem push_runState (v : Byte) (s : State) : (push v s).runState = s.runState := by
  simp [push]

@[simp] theorem pull_runState (s : State) : (pull s).2.runState = s.runState := by
  simp [pull_state]

@[simp] theorem setZN_runState (v : Byte) (s : State) : (setZN v s).runState = s.runState := rfl

@[simp] theorem branchIf_runState (p : Bool) (o : Byte) (s : State) : (branchIf p o s).runState = s.runState := by
  cases p <;> rfl

/-- Every action but BRK's leaves the run state (60_exceptions.md rule R157). -/
theorem Acts.runState_eq {s t : State} {i : Instr} (h : Acts s i t) (hi : i ≠ .brk) : t.runState = s.runState := by
  cases h with
  | brk => exact absurd rfl hi
  | load => simp [loadReg_state]
  | store => simp [storeReg_state]
  | carry => simp [aluCarry_state]
  | logic => simp [aluLogic_state]
  | compare => simp [compareReg_state, compareFlags]
  | bit => simp [bitTest_state, bitFlags]
  | incDec => simp [stepMem_state]
  | shiftA => simp [shiftAcc]
  | shiftM => simp [shiftMem_state]
  | jmp | clc | sec | nop => rfl
  | jsr => simp [callTo_state]
  | rts => simp [returnFrom_state]
  | regWrite | txs | pha | pla | branch => simp

/-! ### The exception (60_exceptions.md rules R150 and R152) -/

/-- The exception after one fetch, as a record update of the state before the step. -/
theorem raiseUnknownOpcode_fetch (s : State) : raiseUnknownOpcode (fetch s).1 (fetch s).2 = { s with
    pc := s.pc + 1, runState := .faulted, fault := some ⟨coreByte s.pc s, s.pc + 1⟩,
    draws := s.draws + drawsIn s.cfg [.read s.pc], trace := s.trace ++ [.read s.pc] } := by
  rw [fetch_val, fetch_state]
  rfl

/-- A step from RUNNING at an opcode with no entry is the exception after one fetch. -/
theorem step_unknown {s : State} (hr : s.runState = .running) (hw : s.cfg.wf = true)
    (hl : lookup s.cfg.table (fetch s).1 = none) :
    step s = .next (raiseUnknownOpcode (fetch s).1 (fetch s).2) := by
  rcases step_cases s hr hw with ⟨-, hs⟩ | ⟨i, hi, -, -⟩
  · exact hs
  · rw [hl] at hi
    cases hi

/-- The host is told the opcode and the PC of the state that raised it. -/
theorem stepReturn_raiseUnknownOpcode (op : Byte) (s : State) :
    stepReturn (raiseUnknownOpcode op s) = some (.faulted op s.pc) := rfl

end Sys2Proof.Machine

open Sys2Proof Sys2Proof.Machine

/-- Settles O32: no action writes the record, BRK is `halt`, and every other action leaves the run state. -/
theorem onlyBrkHalts : Obligations.OnlyBrkHalts := by
  intro i s t h
  refine ⟨(exec_acts h).progress.fault, fun hi => ?_, (exec_acts h).runState_eq⟩
  subst hi
  cases h
  rfl

/-- Settles O23: the one fetch reads the opcode at PC, and the exception records it with PC after that fetch. -/
theorem unknownOpcodeEntersFaulted : Obligations.UnknownOpcodeEntersFaulted := by
  intro s hr hw hl
  rw [← fetch_val] at hl
  refine ⟨_, step_unknown hr hw hl, raiseUnknownOpcode_fetch s, ?_⟩
  rw [stepReturn_raiseUnknownOpcode, fetch_val, fetch_state, State.setPc_pc]

end

section
/-! A run with host acts between steps (70_reset_and_hazards.md rule R170). `runSchedule_append` cuts a schedule where
its first part ends in a state; `runSchedule_replicate_nil` ties a schedule without acts to `run`. -/

namespace Sys2Proof.Machine

@[simp] theorem applyActs_nil (s : State) : applyActs [] s = s := rfl

/-- A scheduled run that starts outside RUNNING has ended (rule R170). -/
theorem runSchedule_of_stopped {s : State} (h : s.runState ≠ .running) (sched : List (List HostAct)) :
    runSchedule sched s = .next s := by
  cases sched with
  | nil => rfl
  | cons acts rest => rw [runSchedule, if_neg h]

/-- The first step of a scheduled run that takes one and ends in a state. -/
theorem runSchedule_cons_next {acts : List HostAct} {rest : List (List HostAct)} {s t : State}
    (hr : s.runState = .running) :
    runSchedule (acts :: rest) s = .next t ↔ ∃ u, step (applyActs acts s) = .next u ∧ runSchedule rest u = .next t := by
  rw [runSchedule, if_pos hr]
  cases step (applyActs acts s) with
  | next u => simp
  | fault r => cases r
  | refused r => simp

/-- A schedule may be cut in two wherever its first part ends in a state, stopped or not. -/
theorem runSchedule_append {sched : List (List HostAct)} {s t : State} (h : runSchedule sched s = .next t)
    (more : List (List HostAct)) : runSchedule (sched ++ more) s = runSchedule more t := by
  induction sched generalizing s with
  | nil =>
    cases h
    rfl
  | cons acts rest ih =>
    by_cases hr : s.runState = .running
    · obtain ⟨u, hu, hrest⟩ := (runSchedule_cons_next hr).mp h
      rw [List.cons_append, runSchedule, if_pos hr, hu]
      exact ih hrest
    · rw [runSchedule_of_stopped hr] at h
      cases h
      rw [runSchedule_of_stopped hr, runSchedule_of_stopped hr]

/-- Without acts the schedule's length is `run`'s fuel (rule R80), also where a step refuses. -/
theorem runSchedule_replicate_nil (k : Nat) (s : State) : runSchedule (List.replicate k []) s = run k s := by
  induction k generalizing s with
  | zero => rfl
  | succ k ih =>
    rw [List.replicate_succ, runSchedule, run, applyActs_nil]
    simp only [ih]

end Sys2Proof.Machine

open Sys2Proof Sys2Proof.Machine

/-- Settles O60: the further acts are scheduled from the state the run ended in, which is stopped. -/
theorem scheduledRunEndsWhereRunningEnds : Obligations.ScheduledRunEndsWhereRunningEnds := by
  refine ⟨fun sched more s t h ht => ?_, runSchedule_replicate_nil⟩
  rw [runSchedule_append h, runSchedule_of_stopped ht]

end
